-- ==== Sys2Proof/Word.lean ====
section
/-!
DEFINITION. The word types of the block: a byte (00_scope.md R22) and a frame, which is a byte
sequence with offset 0 first on the wire.
-/

namespace Sys2Proof

/-- A byte, 8 bits, bit 0 the least significant (00_scope.md R22). -/
abbrev Byte := BitVec 8

/-- A byte sequence; the head is offset 0, the first byte on the wire (20_memory.md R95). -/
abbrev Frame := List Byte

end Sys2Proof
end

