-- ==== Sys2Proof/Config.lean ====
section
/-!
DEFINITION. What an implementation fixes: the data the configuration is made of (datatypes, values,
board identity, point descriptors), the configuration record of 00_scope.md R8 to R21, the reference
configuration of 95_test_vectors.md section 1, and the constants that the spec leaves open (no body).
-/

namespace Sys2Proof

/-- The ten scalar datatypes, in the source's order (30_encoding.md R163). -/
inductive Datatype where
  | u8 | s8 | u16 | s16 | u32 | s32 | u64 | s64 | f32 | f64
  deriving DecidableEq, Repr, Inhabited

/-- The ten datatypes, in the source's order (30_encoding.md R163). -/
def Datatype.all : List Datatype := [.u8, .s8, .u16, .s16, .u32, .s32, .u64, .s64, .f32, .f64]

/-- A point value: the pair of a datatype and a raw pattern of `8 * dt_size` bits (30_encoding.md R167).
Signed values are held as their two's-complement pattern and floats as their bit pattern, so equality is
bitwise. `dt_size` is a parameter, so the pattern is the number it reads as and `Value.fits` bounds it. -/
structure Value where
  dt : Datatype
  raw : Nat
  deriving DecidableEq, Repr, Inhabited

/-- The board identity (30_encoding.md R150). The two names are byte arrays of configured length with no
terminator (20_memory.md R95); `BoardId.fits` says that they have it. -/
structure BoardId where
  manufacturer : List Byte
  model : List Byte
  sensorId : BitVec 32
  hwRevision : Byte
  numOfPoints : Byte
  capabilities : Byte
  deriving DecidableEq, Repr

/-- A point descriptor (30_encoding.md R152). `dtype` is the raw datatype code, which may be illegal
(R163); the name has the configured length where `PointDesc.fits` says so. -/
structure PointDesc where
  name : List Byte
  dtype : Byte
  unit : Byte
  accessRights : Byte
  samplingTime : Byte
  deriving DecidableEq, Repr, Inhabited

/-- One entry of the responder's point database (10_state.md R62). -/
structure DbEntry where
  desc : PointDesc
  value : Value
  deriving DecidableEq, Repr

/-! ### Parameters -/

/-- One parameter for each of the ten datatypes (00_scope.md R19, 30_encoding.md R163). -/
structure PerDatatype (α : Type) where
  u8 : α
  s8 : α
  u16 : α
  s16 : α
  u32 : α
  s32 : α
  u64 : α
  s64 : α
  f32 : α
  f64 : α
  deriving DecidableEq, Repr

/-- The parameter of a datatype. -/
def PerDatatype.get {α : Type} (t : PerDatatype α) : Datatype → α
  | .u8 => t.u8 | .s8 => t.s8 | .u16 => t.u16 | .s16 => t.s16 | .u32 => t.u32
  | .s32 => t.s32 | .u64 => t.u64 | .s64 => t.s64 | .f32 => t.f32 | .f64 => t.f64

/-- The fixed field sizes, in bytes (00_scope.md R13, R14). -/
structure FieldSizes where
  /-- `POINT_NAME_SIZE`. -/
  pointName : Nat
  /-- `MODEL_NAME_SIZE`. -/
  modelName : Nat
  /-- `MANUF_NAME_SIZE`. -/
  manufName : Nat
  /-- `SVR_ADDR_SIZE`. -/
  svrAddr : Nat
  /-- `DSP_MSG_SIZE`. -/
  dspMsg : Nat
  deriving DecidableEq, Repr

/-- The response status codes (00_scope.md R18, 30_encoding.md R160). -/
structure StatusCodes where
  /-- `ST_OK`. -/
  ok : Byte
  /-- `ST_REGISTER_NOT_IMPLEMENTED`. -/
  registerNotImplemented : Byte
  /-- `ST_READ_ONLY`. -/
  readOnly : Byte
  /-- `ST_WRITE_ONLY`. -/
  writeOnly : Byte
  /-- `ST_ERROR`. -/
  error : Byte
  deriving DecidableEq, Repr

/-- The access-right bits, as masks (00_scope.md R19, 30_encoding.md R168). -/
structure AccessBits where
  /-- `ACC_READ`. -/
  read : Byte
  /-- `ACC_WRITE`. -/
  write : Byte
  deriving DecidableEq, Repr

/-- The capability bits, as masks (00_scope.md R19, 30_encoding.md R158). -/
structure CapabilityBits where
  /-- `CAP_DISPLAY`. -/
  display : Byte
  /-- `CAP_RADIO_STATUS`. -/
  radioStatus : Byte
  /-- `CAP_BATTERY_STATUS`. -/
  batteryStatus : Byte
  deriving DecidableEq, Repr

/-- The five CRC parameters, all of them configuration (00_scope.md R15). -/
structure CrcParams where
  poly : BitVec 16
  init : BitVec 16
  refin : Bool
  refout : Bool
  xorout : BitVec 16
  deriving DecidableEq, Repr

/-- The register addresses, each of them a named parameter (00_scope.md R17, 30_encoding.md R130). -/
structure AddrMap where
  /-- `ADDR_ITF_VERSION`. -/
  itfVersion : Byte
  /-- `ADDR_BRD_ID`. -/
  brdId : Byte
  /-- `ADDR_BRD_STATUS`. -/
  brdStatus : Byte
  /-- `ADDR_BRD_CMD`. -/
  brdCmd : Byte
  /-- `ADDR_BAT_STATUS`. -/
  batStatus : Byte
  /-- `ADDR_BAT_CHARGE`. -/
  batCharge : Byte
  /-- `ADDR_SVR_MAIN_ADDR`. -/
  svrMainAddr : Byte
  /-- `ADDR_SVR_SEC_ADDR`. -/
  svrSecAddr : Byte
  /-- `ADDR_DSP_WRITE`. -/
  dspWrite : Byte
  /-- `ADDR_RADIO_STATUS`. -/
  radioStatus : Byte
  /-- `ADDR_RADIO_STRENGTH`. -/
  radioStrength : Byte
  /-- `ADDR_POINT_DESC_BASE`. -/
  pointDescBase : Byte
  /-- `ADDR_READ_POINT_DATA_BASE`. -/
  readPointDataBase : Byte
  /-- `ADDR_WRITE_POINT_DATA_BASE`. -/
  writePointDataBase : Byte
  deriving DecidableEq, Repr

/-- The parameters that both ends of the link share: what an encoding depends on
(00_scope.md R8, R13 to R15, R17 to R19; 70_reset_and_hazards.md R385 step 1). -/
structure Protocol where
  /-- `CRC_POLY`, `CRC_INIT`, `CRC_REFIN`, `CRC_REFOUT`, `CRC_XOROUT` (R15). -/
  crc : CrcParams
  /-- The register addresses (R17). -/
  addrs : AddrMap
  /-- `MAX_POINTS` (R8): the number of addresses in each point range, and the largest legal point count. -/
  maxPoints : Nat
  /-- The field sizes (R13, R14). -/
  fieldSizes : FieldSizes
  /-- The response status codes (R18). -/
  status : StatusCodes
  /-- The datatype codes (R19). -/
  dtCodes : PerDatatype Byte
  /-- `dt_size`, the wire size of each datatype in bytes (R4, 30_encoding.md R163). -/
  dtSizes : PerDatatype Nat
  /-- The access-right bits (R19). -/
  access : AccessBits
  /-- The capability bits (R19). -/
  caps : CapabilityBits
  deriving DecidableEq, Repr

/-- The configuration record: the whole set of 00_scope.md section 4 (R8 to R21), with what 10_state.md R60
to R62 call configuration. It is fixed before the block runs and no step changes it. -/
structure Config extends Protocol where
  /-- `MAX_RETRIES` (R9). -/
  maxRetries : Nat
  /-- `TICK_MS` (R10); read by the timeout formula only. -/
  tickMs : Nat
  /-- `RESP_TIMEOUT_MS` (R11). -/
  respTimeoutMs : Nat
  /-- `RX_BUF_SIZE` (R20), the same on both sides. -/
  rxBufSize : Nat
  /-- `INTERBYTE_TIMEOUT` is OPEN (R20). No rule reads it: the environment measures the silence and signals
  its expiry as `RX_IDLE`; `none` leaves its length to the environment (notes/assumptions/13.md). -/
  interbyteTimeout : Option Nat
  /-- `ITF_VERSION_SUPPORTED` (R16), the version the poller accepts. -/
  itfVersionSupported : Byte
  /-- `SENSOR_ITF_VERSION` (R16), the version the responder reports. -/
  sensorItfVersion : Byte
  /-- `cfg_brd` (10_state.md R60); its `numOfPoints` is `NP` (R21). -/
  brd : BoardId
  /-- The value of `brd_status` the sensor application supplies at configuration (10_state.md R61). -/
  brdStatus : Byte
  /-- Likewise for `bat_status`. -/
  batStatus : Byte
  /-- Likewise for `bat_charge`. -/
  batCharge : Byte
  /-- Likewise for `svr_main`. -/
  svrMain : List Byte
  /-- Likewise for `svr_sec`. -/
  svrSec : List Byte
  /-- The configured descriptors and initial values (10_state.md R62). -/
  points : List DbEntry
  deriving DecidableEq, Repr

/-- What the CRC register holds between frames: a FREE VALUE. The spec calls it not architectural
(10_state.md R65) and unspecified (70_reset_and_hazards.md R383); nothing constrains it and nothing
reads it (notes/assumptions/5.md). -/
opaque Config.crcBetweenFrames : Nat → BitVec 16

/-! What a poller handler reads where the spec states no value: FREE VALUES, DESIGN CHOICE
(notes/assumptions/20.md). Each is applied to `State.freeSeq`, the number of such reads so far. -/

/-- `brd.num_of_points` while `brd` is `none`, which holds no number and is unknown (10_state.md R50). -/
opaque Config.unknownNumOfPoints : Nat → Byte

/-- The descriptor of point `i` (second argument) where the poller holds none (10_state.md R50), or where the
response read for one has another shape. -/
opaque Config.unknownDesc : Nat → Nat → PointDesc

/-- `due[cursor]` past the end of the due list. -/
opaque Config.unknownDueIndex : Nat → BitVec 8

/-- The value of a response whose shape has none. -/
opaque Config.unknownValue : Nat → Value

/-- The default CRC parameter set (00_scope.md R15). -/
def CrcParams.default : CrcParams :=
  { poly := 0x1021, init := 0x0000, refin := false, refout := false, xorout := 0x0000 }

/-- The reference address map (00_scope.md R17, 30_encoding.md R130). -/
def AddrMap.reference : AddrMap where
  itfVersion := 0x00
  brdId := 0x01
  brdStatus := 0x02
  brdCmd := 0x03
  batStatus := 0x04
  batCharge := 0x05
  svrMainAddr := 0x06
  svrSecAddr := 0x07
  dspWrite := 0x08
  radioStatus := 0x09
  radioStrength := 0x0A
  pointDescBase := 0x20
  readPointDataBase := 0x40
  writePointDataBase := 0x60

/-- The field sizes of 00_scope.md R13 and R14. -/
def FieldSizes.reference : FieldSizes :=
  { pointName := 8, modelName := 8, manufName := 8, svrAddr := 16, dspMsg := 24 }

/-- The status codes of 00_scope.md R18. -/
def StatusCodes.reference : StatusCodes :=
  { ok := 0x00, registerNotImplemented := 0x01, readOnly := 0x02, writeOnly := 0x03, error := 0x04 }

/-- The parameter values that 00_scope.md section 4 gives (R8, R13 to R15, R17 to R19), with the wire sizes
of 30_encoding.md R163. -/
def Protocol.reference : Protocol where
  crc := CrcParams.default
  addrs := AddrMap.reference
  maxPoints := 32
  fieldSizes := FieldSizes.reference
  status := StatusCodes.reference
  dtCodes :=
    { u8 := 0, s8 := 1, u16 := 2, s16 := 3, u32 := 4, s32 := 5, u64 := 6, s64 := 7, f32 := 8, f64 := 9 }
  dtSizes :=
    { u8 := 1, s8 := 1, u16 := 2, s16 := 2, u32 := 4, s32 := 4, u64 := 8, s64 := 8, f32 := 4, f64 := 8 }
  access := { read := 0x01, write := 0x02 }
  caps := { display := 0x01, radioStatus := 0x02, batteryStatus := 0x04 }

/-- The reference configuration: the default parameters with the reference sensor S0
(95_test_vectors.md section 1). -/
def Config.reference : Config where
  toProtocol := Protocol.reference
  maxRetries := 3
  tickMs := 250
  respTimeoutMs := 1000
  rxBufSize := 257
  interbyteTimeout := none
  itfVersionSupported := 0x01
  sensorItfVersion := 0x01
  brd :=
    { manufacturer := [0x41, 0x43, 0x4D, 0x45, 0, 0, 0, 0]
      model := [0x54, 0x48, 0x30, 0x31, 0, 0, 0, 0]
      sensorId := 0x12345678
      hwRevision := 2
      numOfPoints := 3
      capabilities := 0x05 }
  brdStatus := 0x00
  batStatus := 0x01
  batCharge := 0x57
  svrMain := [0x66, 0x64, 0x30, 0x30, 0x3A, 0x3A, 0x31, 0, 0, 0, 0, 0, 0, 0, 0, 0]
  svrSec := [0x66, 0x64, 0x30, 0x30, 0x3A, 0x3A, 0x32, 0, 0, 0, 0, 0, 0, 0, 0, 0]
  points :=
    [ { desc := { name := [0x54, 0x45, 0x4D, 0x50, 0, 0, 0, 0]
                  dtype := 3, unit := 1, accessRights := 0x01, samplingTime := 1 }
        value := ⟨.s16, 0xFF83⟩ },
      { desc := { name := [0x53, 0x45, 0x54, 0x50, 0, 0, 0, 0]
                  dtype := 4, unit := 2, accessRights := 0x03, samplingTime := 2 }
        value := ⟨.u32, 1000⟩ },
      { desc := { name := [0x52, 0x45, 0x4C, 0x41, 0x59, 0, 0, 0]
                  dtype := 0, unit := 0, accessRights := 0x02, samplingTime := 5 }
        value := ⟨.u8, 0⟩ } ]

end Sys2Proof
end

