-- ==== Sys2Proof/Machine/Crc.lean ====
section
/-!
DEFINITION. The CRC unit (40_crc.md): the three byte-serial operations on its 16-bit register, the
function `crc16` they compose to, and a table-driven form of the update.
-/

namespace Sys2Proof

/-- One of the eight repetitions of 40_crc.md R181: shift left, and xor the polynomial when bit 15 was
set. -/
def crcBit (poly c : BitVec 16) : BitVec 16 :=
  if c.getLsbD 15 then (c <<< 1) ^^^ poly else c <<< 1

/-- `crcBit` repeated `n` times. -/
def crcBits (poly : BitVec 16) : Nat → BitVec 16 → BitVec 16
  | 0, c => c
  | n + 1, c => crcBits poly n (crcBit poly c)

/-- The byte as the CRC takes it in: reversed when `CRC_REFIN` (40_crc.md R181). -/
def crcInByte (p : CrcParams) (b : Byte) : Byte :=
  if p.refin then b.reverse else b

/-- `CRC_CLEAR` (40_crc.md R183). -/
def crcClear (p : CrcParams) : BitVec 16 := p.init

/-- `CRC_UPDATE(b)` (40_crc.md R184). -/
def crcUpdate (p : CrcParams) (c : BitVec 16) (b : Byte) : BitVec 16 :=
  crcBits p.poly 8 (c ^^^ ((crcInByte p b).setWidth 16 <<< 8))

/-- `CRC_RESULT` (40_crc.md R185). -/
def crcResult (p : CrcParams) (c : BitVec 16) : BitVec 16 :=
  (if p.refout then c.reverse else c) ^^^ p.xorout

/-- `crc16(d)`: `CRC_CLEAR`, one `CRC_UPDATE` per byte, `CRC_RESULT` (40_crc.md R181 and section 2). -/
def crc16 (p : CrcParams) (d : List Byte) : BitVec 16 :=
  crcResult p (d.foldl (crcUpdate p) (crcClear p))

/-- Entry `x` of the 256-entry table of a table-driven implementation (40_crc.md R182). -/
def crcTableEntry (p : CrcParams) (x : Byte) : BitVec 16 :=
  crcBits p.poly 8 (x.setWidth 16 <<< 8)

/-- `CRC_UPDATE` by table: a byte at a time (40_crc.md R182). -/
def crcUpdateByTable (p : CrcParams) (c : BitVec 16) (b : Byte) : BitVec 16 :=
  (c <<< 8) ^^^ crcTableEntry p (c.extractLsb' 8 8 ^^^ crcInByte p b)

/-- `crc16` by table (40_crc.md R182). -/
def crc16ByTable (p : CrcParams) (d : List Byte) : BitVec 16 :=
  crcResult p (d.foldl (crcUpdateByTable p) (crcClear p))

end Sys2Proof
end

