-- ==== Sys2Proof/Machine/Flags.lean ====
section
/-!
DEFINITION. The block has no arithmetic flags; its status-like values (10_state.md R66) are here: the
handler result, the status of a response to an error, the codec's error result, and the error taxonomy
of 60_exceptions.md R342. With them stand the access-right and capability bit tests.
-/

namespace Sys2Proof

/-! ### Access rights and capabilities -/

/-- The point includes read: `access_rights & ACC_READ ≠ 0` (30_encoding.md R168). -/
def includesRead (b : AccessBits) (accessRights : Byte) : Bool := accessRights &&& b.read != 0

/-- The point includes write: `access_rights & ACC_WRITE ≠ 0` (30_encoding.md R168). -/
def includesWrite (b : AccessBits) (accessRights : Byte) : Bool := accessRights &&& b.write != 0

/-- `CAP_DISPLAY` (30_encoding.md R158). No rule of the block acts on a capability bit. -/
def hasCapDisplay (b : CapabilityBits) (capabilities : Byte) : Bool := capabilities &&& b.display != 0
/-- `CAP_RADIO_STATUS` (30_encoding.md R158). -/
def hasCapRadioStatus (b : CapabilityBits) (capabilities : Byte) : Bool :=
  capabilities &&& b.radioStatus != 0
/-- `CAP_BATTERY_STATUS` (30_encoding.md R158). -/
def hasCapBatteryStatus (b : CapabilityBits) (capabilities : Byte) : Bool :=
  capabilities &&& b.batteryStatus != 0

/-! ### Codec errors -/

/-- The error a codec operation returns, with the information it names (41_codec.md R212). -/
inductive CodecError where
  /-- Fewer bytes than a frame needs; `n` is the number received. -/
  | shortFrame (n : Nat)
  /-- The received check `rx` differs from the computed one. -/
  | crcMismatch (rx : BitVec 16)
  /-- A size below the header, or a payload that does not fit its shape; `x` is the offending size,
  length, address or code. -/
  | malformed (x : Nat)
  deriving DecidableEq, Repr

/-! ### The error taxonomy -/

/-- The block's errors (60_exceptions.md R342). An error is a value of the step that detects it; none is
recorded in the state. -/
inductive BlockError where
  | shortFrame | crcMismatch | malformed
  | registerNotImplemented | readOnlyViolation | writeOnlyViolation | unknownCommand
  | protocolTimeout | retryExhausted | invalidPointCount | versionMismatch | badResponse
  deriving DecidableEq, Repr

/-- The error's ordinal (60_exceptions.md R342). -/
def BlockError.code : BlockError → Nat
  | .shortFrame => 0
  | .crcMismatch => 1
  | .malformed => 2
  | .registerNotImplemented => 3
  | .readOnlyViolation => 4
  | .writeOnlyViolation => 5
  | .unknownCommand => 6
  | .protocolTimeout => 7
  | .retryExhausted => 8
  | .invalidPointCount => 9
  | .versionMismatch => 10
  | .badResponse => 11

/-- The codec's error as an entry of the taxonomy. -/
def CodecError.kind : CodecError → BlockError
  | .shortFrame _ => .shortFrame
  | .crcMismatch _ => .crcMismatch
  | .malformed _ => .malformed

/-- The dispatcher's errors, each of which is the status of the response (60_exceptions.md R346). -/
inductive DispatchError where
  | registerNotImplemented | readOnlyViolation | writeOnlyViolation | unknownCommand
  deriving DecidableEq, Repr

/-- The dispatcher's error as an entry of the taxonomy. -/
def DispatchError.kind : DispatchError → BlockError
  | .registerNotImplemented => .registerNotImplemented
  | .readOnlyViolation => .readOnlyViolation
  | .writeOnlyViolation => .writeOnlyViolation
  | .unknownCommand => .unknownCommand

/-- The status byte of a dispatcher error (60_exceptions.md R346, 30_encoding.md R160). -/
def DispatchError.status (st : StatusCodes) : DispatchError → Byte
  | .registerNotImplemented => st.registerNotImplemented
  | .readOnlyViolation => st.readOnly
  | .writeOnlyViolation => st.writeOnly
  | .unknownCommand => st.error

/-! ### Handler results -/

/-- The transient result of a poller state handler (10_state.md R42). -/
inductive HandlerResult where
  | ok | waitOk | waitStop | waitAbort | error
  deriving DecidableEq, Repr

/-- The result's code (30_encoding.md R171). -/
def HandlerResult.code : HandlerResult → Nat
  | .ok => 0
  | .waitOk => 1
  | .waitStop => 2
  | .waitAbort => 3
  | .error => 4

end Sys2Proof
end

