-- ==== Sys2Proof/Machine/Operands.lean ====
section
/-!
DEFINITION. Operand forms: the address decoder and the address map, datatypes and value marshalling,
and the payload shapes of 30_encoding.md R140 to R168. Nothing here reads or writes State.
-/

namespace Sys2Proof

/-! ### Byte order (20_memory.md R93 to R96) -/

/-- `le_N(v)` for `n` bytes: byte `j` is `v[8j+7:8j]` (00_scope.md R25, 30_encoding.md R164). -/
def leBytes (n v : Nat) : List Byte := (List.range n).map fun j => BitVec.ofNat 8 (v >>> (8 * j))

/-- `from_le(bytes)` as a number (00_scope.md R25). -/
def fromLe : List Byte → Nat
  | [] => 0
  | b :: bs => b.toNat + 256 * fromLe bs

/-- `from_le(bytes)` as a `w`-bit pattern. -/
def fromLeBits (w : Nat) (bs : List Byte) : BitVec w := BitVec.ofNat w (fromLe bs)

/-- The fixed-length byte array of `n` bytes at offset `off` of a payload, in offset order
(20_memory.md R95). Callers have checked the payload's length. -/
def bytesAt (pl : List Byte) (off n : Nat) : List Byte := (pl.drop off).take n

/-! ### Datatypes and values (30_encoding.md R163 to R167) -/

/-- The datatype's code (30_encoding.md R163). -/
def Datatype.code (p : Protocol) (dt : Datatype) : Byte := p.dtCodes.get dt

/-- The datatype of a code; a code of none of the ten is illegal (30_encoding.md R163). -/
def Datatype.ofCode (p : Protocol) (c : Byte) : Option Datatype :=
  Datatype.all.find? fun dt => dt.code p == c

/-- `dt_size`, the wire size in bytes (30_encoding.md R163). -/
def Datatype.size (p : Protocol) (dt : Datatype) : Nat := p.dtSizes.get dt

/-- The raw pattern has `8 * dt_size` bits (30_encoding.md R167). -/
def Value.fits (p : Protocol) (x : Value) : Bool := decide (x.raw < 2 ^ (8 * x.dt.size p))

/-- The value's wire bytes, little-endian, at the datatype's size; the tag is not on the wire
(30_encoding.md R164 to R167). -/
def Value.bytes (p : Protocol) (x : Value) : List Byte := leBytes (x.dt.size p) x.raw

/-- The value of datatype `dt` that the bytes `pl` stand for (30_encoding.md R164 to R166). -/
def Value.ofBytes (dt : Datatype) (pl : List Byte) : Value := { dt := dt, raw := fromLe pl }

/-- The signed datatypes (30_encoding.md R165). -/
def Datatype.isSigned : Datatype → Bool
  | .s8 | .s16 | .s32 | .s64 => true
  | .u8 | .u16 | .u32 | .u64 | .f32 | .f64 => false

/-- The value of datatype `dt` and width `N` for the number `v`: the pattern `v mod 2^N`
(30_encoding.md R164, R165). -/
def Value.ofNum (p : Protocol) (dt : Datatype) (v : Int) : Value :=
  { dt := dt, raw := (v % 2 ^ (8 * dt.size p)).toNat }

/-- The number an integer value stands for: `from_le` for the unsigned types, and for the signed ones
`w - 2^N` when bit `N-1` of `w` is set, else `w` (30_encoding.md R164, R165). The block gives a float
pattern no number (R166). -/
def Value.num (p : Protocol) (x : Value) : Option Int :=
  match x.dt with
  | .u8 | .u16 | .u32 | .u64 => some x.raw
  | .s8 | .s16 | .s32 | .s64 =>
    if x.raw.testBit (8 * x.dt.size p - 1) then some (x.raw - 2 ^ (8 * x.dt.size p)) else some x.raw
  | .f32 | .f64 => none

/-! ### Addresses (30_encoding.md R130, R131) -/

/-- The eleven singleton registers (30_encoding.md R130). -/
inductive Singleton where
  | itfVersion | brdId | brdStatus | brdCmd | batStatus | batCharge
  | svrMainAddr | svrSecAddr | dspWrite | radioStatus | radioStrength
  deriving DecidableEq, Repr

/-- The eleven singletons, in the order of 30_encoding.md R130. -/
def Singleton.all : List Singleton :=
  [.itfVersion, .brdId, .brdStatus, .brdCmd, .batStatus, .batCharge, .svrMainAddr, .svrSecAddr,
   .dspWrite, .radioStatus, .radioStrength]

/-- The singleton's address (00_scope.md R17). -/
def Singleton.addr (m : AddrMap) : Singleton → Byte
  | .itfVersion => m.itfVersion | .brdId => m.brdId | .brdStatus => m.brdStatus
  | .brdCmd => m.brdCmd | .batStatus => m.batStatus | .batCharge => m.batCharge
  | .svrMainAddr => m.svrMainAddr | .svrSecAddr => m.svrSecAddr | .dspWrite => m.dspWrite
  | .radioStatus => m.radioStatus | .radioStrength => m.radioStrength

/-- The class of a register address; a point class carries the 0-based point index. -/
inductive AddrClass where
  | singleton (r : Singleton)
  | pointDesc (i : BitVec 8)
  | readPoint (i : BitVec 8)
  | writePoint (i : BitVec 8)
  | unmapped
  deriving DecidableEq, Repr

/-- The singleton at an address, if any (30_encoding.md R130). -/
def Singleton.ofAddr (m : AddrMap) (a : Byte) : Option Singleton :=
  Singleton.all.find? fun r => r.addr m == a

/-- The address lies in the range of `n` point addresses that starts at `base` (00_scope.md R8, R17). -/
def inRange (n : Nat) (base a : Byte) : Bool := decide (base.toNat ≤ a.toNat ∧ a.toNat < base.toNat + n)

/-- `classify(a)` (30_encoding.md R131), as a range test of the address parameters, which the rule asks
of a model that takes them as parameters. The point index is the offset in the range. -/
def classify (p : Protocol) (a : Byte) : AddrClass :=
  if inRange p.maxPoints p.addrs.pointDescBase a then .pointDesc (a - p.addrs.pointDescBase)
  else if inRange p.maxPoints p.addrs.readPointDataBase a then .readPoint (a - p.addrs.readPointDataBase)
  else if inRange p.maxPoints p.addrs.writePointDataBase a then
    .writePoint (a - p.addrs.writePointDataBase)
  else match Singleton.ofAddr p.addrs a with
    | some r => .singleton r
    | none => .unmapped

/-- The addresses that a map gives to singletons. -/
def AddrMap.singles (m : AddrMap) : List Byte := Singleton.all.map (Singleton.addr m)

/-- The first addresses of the three point ranges. -/
def AddrMap.bases (m : AddrMap) : List Byte :=
  [m.pointDescBase, m.readPointDataBase, m.writePointDataBase]

/-- Every address has one class: the singletons differ, the ranges of `n` addresses lie inside the 256
addresses, and nothing overlaps. DEDUCED (notes/assumptions/7.md): 30_encoding.md R131 returns exactly one
class. -/
def AddrMap.ok (m : AddrMap) (n : Nat) : Bool :=
  decide (m.singles.Nodup ∧ (∀ b ∈ m.bases, b.toNat + n ≤ 256) ∧
    (m.bases.Pairwise fun b c => b.toNat + n ≤ c.toNat ∨ c.toNat + n ≤ b.toNat) ∧
    ∀ b ∈ m.bases, ∀ a ∈ m.singles, inRange n b a = false)

/-- The five codes. -/
def StatusCodes.all (st : StatusCodes) : List Byte :=
  [st.ok, st.registerNotImplemented, st.readOnly, st.writeOnly, st.error]

/-- The wire size of a board identity: two names, a u32 and three bytes (30_encoding.md R150). -/
def FieldSizes.boardId (z : FieldSizes) : Nat := z.manufName + z.modelName + 7

/-- The wire size of a point descriptor: a name and four bytes (30_encoding.md R152). -/
def FieldSizes.pointDesc (z : FieldSizes) : Nat := z.pointName + 4

/-- What the parameters must satisfy for the encodings to be what 30_encoding.md says they are: one class
per address, one meaning per code, and frames that fit their size byte (R120) with their header of 2
bytes in a request and 3 in a response. DEDUCED (notes/assumptions/7.md). -/
def Protocol.ok (p : Protocol) : Bool :=
  decide (p.fieldSizes.boardId ≤ 252 ∧ p.fieldSizes.pointDesc ≤ 252 ∧ p.fieldSizes.svrAddr ≤ 252 ∧
    p.fieldSizes.dspMsg ≤ 253 ∧ (∀ dt ∈ Datatype.all, 1 ≤ dt.size p ∧ dt.size p ≤ 252) ∧
    p.status.all.Nodup ∧ (Datatype.all.map (Datatype.code p)).Nodup ∧ p.addrs.ok p.maxPoints = true)

/-- The four rows of the opcode table for unmapped addresses. -/
inductive UnmappedRow where
  | lo0B | lo0C | lo10 | hi
  deriving DecidableEq, Repr

/-- The unmapped row an unmapped address belongs to (30_encoding.md R130). Under a map that leaves other
addresses unmapped, one that no row's mask covers goes to the last row (notes/assumptions/19.md). -/
def UnmappedRow.ofAddr (a : Byte) : UnmappedRow :=
  if a = 0x0B then .lo0B
  else if a.extractLsb' 2 6 = 0b000011#6 then .lo0C
  else if a.extractLsb' 4 4 = 0b0001#4 then .lo10
  else .hi

/-- The address of the row UNMAPPED_LO_0B. -/
def UnmappedRow.addr0B : Byte := 0x0B

/-- The address of the row UNMAPPED_LO_0C with bits 1:0 `lo`. -/
def UnmappedRow.addr0C (lo : BitVec 2) : Byte := 0b000011#6 ++ lo

/-- The address of the row UNMAPPED_LO_10 with bits 3:0 `lo`. -/
def UnmappedRow.addr10 (lo : BitVec 4) : Byte := 0b0001#4 ++ lo

/-! ### The decoding side's view of the points (41_codec.md R200, R201) -/

/-- What a decoding side knows of its points: how many there are, and the datatype each descriptor
carries (`none` where it carries an illegal code or there is no descriptor). -/
structure PointView where
  count : Nat
  types : List (Option Datatype)
  deriving DecidableEq, Repr

/-- `dt_of(i)` (41_codec.md R201). -/
def PointView.dtOf (v : PointView) (i : Nat) : Option Datatype :=
  if i < v.count then v.types.getD i none else none

/-- `valid(a)` at a responder whose declared point count is `np` (30_encoding.md R132). -/
def validAddr (p : Protocol) (np : Nat) (a : Byte) : Bool :=
  match classify p a with
  | .singleton _ => true
  | .pointDesc i => i.toNat < np
  | .readPoint i => i.toNat < np
  | .writePoint i => i.toNat < np
  | .unmapped => false

/-! ### Payload shapes (30_encoding.md R140 to R157) -/

/-- `req_len` (30_encoding.md R157). `dt` is the point's datatype. -/
def reqLen (p : Protocol) : AddrClass → Datatype → Nat
  | .singleton .brdCmd, _ => 1
  | .singleton .dspWrite, _ => p.fieldSizes.dspMsg
  | .singleton .radioStatus, _ => 1
  | .singleton .radioStrength, _ => 1
  | .singleton _, _ => 0
  | .pointDesc _, _ => 0
  | .readPoint _, _ => 0
  | .writePoint _, dt => dt.size p
  | .unmapped, _ => 0

/-- `rsp_len` of an OK response (30_encoding.md R157). -/
def rspLen (p : Protocol) : AddrClass → Datatype → Nat
  | .singleton .itfVersion, _ => 1
  | .singleton .brdId, _ => p.fieldSizes.boardId
  | .singleton .brdStatus, _ => 1
  | .singleton .batStatus, _ => 1
  | .singleton .batCharge, _ => 1
  | .singleton .svrMainAddr, _ => p.fieldSizes.svrAddr
  | .singleton .svrSecAddr, _ => p.fieldSizes.svrAddr
  | .singleton _, _ => 0
  | .pointDesc _, _ => p.fieldSizes.pointDesc
  | .readPoint _, dt => dt.size p
  | .writePoint _, _ => 0
  | .unmapped, _ => 0

/-- The names have their configured sizes (00_scope.md R13). -/
def BoardId.fits (z : FieldSizes) (b : BoardId) : Bool :=
  b.manufacturer.length == z.manufName && b.model.length == z.modelName

/-- The bytes of a board identity (30_encoding.md R150). -/
def BoardId.bytes (b : BoardId) : List Byte :=
  b.manufacturer ++ b.model ++ leBytes 4 b.sensorId.toNat
    ++ [b.hwRevision, b.numOfPoints, b.capabilities]

/-- The board identity that bytes stand for (30_encoding.md R150). -/
def BoardId.ofBytes (z : FieldSizes) (pl : List Byte) : BoardId :=
  let rest := pl.drop (z.manufName + z.modelName)
  { manufacturer := bytesAt pl 0 z.manufName
    model := bytesAt pl z.manufName z.modelName
    sensorId := fromLeBits 32 (bytesAt rest 0 4)
    hwRevision := rest.getD 4 0
    numOfPoints := rest.getD 5 0
    capabilities := rest.getD 6 0 }

/-- The name has its configured size (00_scope.md R13). -/
def PointDesc.fits (z : FieldSizes) (d : PointDesc) : Bool := d.name.length == z.pointName

/-- The bytes of a point descriptor (30_encoding.md R152). -/
def PointDesc.bytes (d : PointDesc) : List Byte :=
  d.name ++ [d.dtype, d.unit, d.accessRights, d.samplingTime]

/-- The point descriptor that bytes stand for (30_encoding.md R152). -/
def PointDesc.ofBytes (z : FieldSizes) (pl : List Byte) : PointDesc :=
  let rest := pl.drop z.pointName
  { name := bytesAt pl 0 z.pointName
    dtype := rest.getD 0 0
    unit := rest.getD 1 0
    accessRights := rest.getD 2 0
    samplingTime := rest.getD 3 0 }

/-- The fields of an OK response, a tagged union that the address selects (30_encoding.md R133). -/
inductive RspFields where
  | none
  | version (v : Byte)
  | board (b : BoardId)
  | brdStatus (v : Byte)
  | batStatus (v : Byte)
  | batCharge (v : Byte)
  | svrMain (a : List Byte)
  | svrSec (a : List Byte)
  | desc (d : PointDesc)
  | value (x : Value)
  deriving DecidableEq, Repr

/-- `encode_rsp_payload` (41_codec.md R208). -/
def RspFields.bytes (p : Protocol) : RspFields → List Byte
  | .none => []
  | .version v => [v]
  | .board b => b.bytes
  | .brdStatus v => [v]
  | .batStatus v => [v]
  | .batCharge v => [v]
  | .svrMain a => a
  | .svrSec a => a
  | .desc d => d.bytes
  | .value x => x.bytes p

/-- `decode_rsp_payload(cls, pl, dt)` (41_codec.md R220): the fields of the class's response shape. -/
def decodeRspPayload (p : Protocol) (cls : AddrClass) (dt : Datatype) (pl : List Byte) : RspFields :=
  match cls with
  | .singleton .itfVersion => .version (pl.getD 0 0)
  | .singleton .brdId => .board (BoardId.ofBytes p.fieldSizes pl)
  | .singleton .brdStatus => .brdStatus (pl.getD 0 0)
  | .singleton .brdCmd => .none
  | .singleton .batStatus => .batStatus (pl.getD 0 0)
  | .singleton .batCharge => .batCharge (pl.getD 0 0)
  | .singleton .svrMainAddr => .svrMain (bytesAt pl 0 p.fieldSizes.svrAddr)
  | .singleton .svrSecAddr => .svrSec (bytesAt pl 0 p.fieldSizes.svrAddr)
  | .singleton .dspWrite => .none
  | .singleton .radioStatus => .none
  | .singleton .radioStrength => .none
  | .pointDesc _ => .desc (PointDesc.ofBytes p.fieldSizes pl)
  | .readPoint _ => .value (Value.ofBytes dt pl)
  | .writePoint _ => .none
  | .unmapped => .none

/-! ### The configuration's own operands -/

/-- `TIMEOUT_TICKS` (00_scope.md R12). -/
def Config.timeoutTicks (c : Config) : Nat := max 1 (c.respTimeoutMs / c.tickMs)

/-- `NP` (00_scope.md R21). -/
def Config.np (c : Config) : Nat := c.brd.numOfPoints.toNat

/-- The value is one of the point of descriptor `d`: it has the descriptor's datatype and width
(41_codec.md R215, 30_encoding.md R167). -/
def PointDesc.takes (p : Protocol) (d : PointDesc) (x : Value) : Bool :=
  Datatype.ofCode p d.dtype == some x.dt && x.fits p

/-- The entry's descriptor has a name of its size and a legal datatype code, and its value has that
datatype (70_reset_and_hazards.md R385 step 2). -/
def DbEntry.ok (p : Protocol) (e : DbEntry) : Bool := e.desc.fits p.fieldSizes && e.desc.takes p e.value

/-- The boot requirements on the configuration (70_reset_and_hazards.md R385 steps 1 and 2,
93_implementation_defined.md I30, I31, I33), with the conditions that the encodings and the register
widths impose (notes/assumptions/7.md). -/
def Config.ok (c : Config) : Bool :=
  decide (c.crc.poly.getLsbD 0 = true ∧ c.tickMs ≠ 0 ∧ 257 ≤ c.rxBufSize ∧ c.rxBufSize < 2 ^ 16 ∧
    c.timeoutTicks + 1 < 2 ^ 32 ∧ c.maxRetries + 1 < 2 ^ 8 ∧ c.toProtocol.ok = true ∧
    c.np = c.points.length ∧ c.np ≤ c.maxPoints ∧ c.brd.fits c.fieldSizes = true ∧
    c.svrMain.length = c.fieldSizes.svrAddr ∧ c.svrSec.length = c.fieldSizes.svrAddr ∧
    ∀ e ∈ c.points, e.ok c.toProtocol = true)

end Sys2Proof
end

