-- ==== Sys2Proof/Machine/Codec.lean ====
section
/-!
DEFINITION. The frame codec (41_codec.md): packing of requests and responses, the checks that unpacking
makes before it looks at a payload, and the unpacking of responses. The unpacking of requests, which
yields instructions, is Sys2Proof/Decode.lean.
-/

namespace Sys2Proof

/-! ### Packing -/

/-- The two CRC bytes of a frame body, low byte first (20_memory.md R93, 30_encoding.md R123). -/
def crcBytes (p : CrcParams) (body : Frame) : Frame :=
  [(crc16 p body).extractLsb' 0 8, (crc16 p body).extractLsb' 8 8]

/-- `pack_request(addr, fields)` with the request payload already encoded (41_codec.md R205). -/
def packRequest (p : CrcParams) (addr : Byte) (payload : List Byte) : Frame :=
  let body := [BitVec.ofNat 8 (2 + payload.length), addr] ++ payload
  body ++ crcBytes p body

/-- `pack_response(addr, status, fields)` (41_codec.md R207): the fields are used only when the status
is `ST_OK`. -/
def packResponse (p : Protocol) (addr status : Byte) (fields : RspFields) : Frame :=
  let payload := if status = p.status.ok then fields.bytes p else []
  let body := [BitVec.ofNat 8 (3 + payload.length), addr] ++ payload ++ [status]
  body ++ crcBytes p.crc body

/-! ### Unpacking -/

/-- The checks common to both unpackers, in their normative order (41_codec.md R210, R220): at least 3
bytes, the size byte at least the header size `hdr`, the whole frame present, the CRC. The answer is
the covered part of the frame, bytes `[0, size)`; bytes past `size + 2` are not read (R211). -/
def checkFrame (p : CrcParams) (hdr : Nat) (buf : Frame) : Except CodecError Frame :=
  if buf.length < 3 then .error (.shortFrame buf.length)
  else
    let size := (buf.getD 0 0).toNat
    if size < hdr then .error (.malformed size)
    else if buf.length < size + 2 then .error (.shortFrame buf.length)
    else
      let rx : BitVec 16 := buf.getD (size + 1) 0 ++ buf.getD size 0
      if crc16 p (buf.take size) ≠ rx then .error (.crcMismatch rx)
      else .ok (buf.take size)

/-- A decoded response (41_codec.md R220); `fields` is `none` when the status is not `ST_OK`. -/
structure Response where
  addr : Byte
  status : Byte
  fields : RspFields
  deriving DecidableEq, Repr

/-- The payload part of `unpack_response` for an OK response of class `cls` whose datatype is known:
the length check, the decoding, and the datatype code of a descriptor (41_codec.md R220, R223). -/
def decodeOkPayload (p : Protocol) (cls : AddrClass) (dt : Datatype) (addr : Byte) (pl : List Byte) :
    Except CodecError Response :=
  if pl.length ≠ rspLen p cls dt then .error (.malformed pl.length)
  else match decodeRspPayload p cls dt pl with
    | .desc d =>
      if Datatype.ofCode p d.dtype = none then .error (.malformed d.dtype.toNat)
      else .ok { addr := addr, status := p.status.ok, fields := .desc d }
    | f => .ok { addr := addr, status := p.status.ok, fields := f }

/-- `unpack_response(buf, n)` with `n` the length of `buf` (41_codec.md R220). -/
def unpackResponse (p : Protocol) (v : PointView) (buf : Frame) : Except CodecError Response :=
  match checkFrame p.crc 3 buf with
  | .error e => .error e
  | .ok body =>
    let addr := body.getD 1 0
    let status := body.getD (body.length - 1) 0
    let payload := (body.drop 2).dropLast
    if status ≠ p.status.ok then
      if payload.length ≠ 0 then .error (.malformed payload.length)
      else .ok { addr := addr, status := status, fields := .none }
    else match classify p addr with
      | .unmapped => .error (.malformed addr.toNat)
      | .readPoint i =>
        match v.dtOf i.toNat with
        | none => .error (.malformed addr.toNat)
        | some dt => decodeOkPayload p (.readPoint i) dt addr payload
      | .writePoint i =>
        match v.dtOf i.toNat with
        | none => .error (.malformed addr.toNat)
        | some dt => decodeOkPayload p (.writePoint i) dt addr payload
      | .pointDesc i => decodeOkPayload p (.pointDesc i) .u8 addr payload
      | .singleton r => decodeOkPayload p (.singleton r) .u8 addr payload

end Sys2Proof
end

