-- ==== Sys2Proof/Syntax.lean ====
section
/-!
DEFINITION. The block's instructions, one constructor per row of spec/opcode_table.json: the 18 register
requests of the frame protocol and the 15 poller states (10_state.md R40). An operand is what the
decoder has read from the frame; a point index is the address's offset in its range, which has MAX_POINTS
addresses. The addresses named here are those of the reference map (00_scope.md R17).
-/

namespace Sys2Proof

/-- The instructions. A request carries the decoded request payload of 30_encoding.md R140 to R155; a
request to an invalid address carries none (41_codec.md R214). A poller state carries nothing. -/
inductive Instr where
  /-- ITF_VERSION, address 0x00. -/
  | itfVersion
  /-- BRD_ID, address 0x01. -/
  | brdId
  /-- BRD_STATUS, address 0x02. -/
  | brdStatus
  /-- BRD_CMD, address 0x03, with its opaque command code. -/
  | brdCmd (cmd : Byte)
  /-- BAT_STATUS, address 0x04. -/
  | batStatus
  /-- BAT_CHARGE, address 0x05. -/
  | batCharge
  /-- SVR_MAIN_ADDR, address 0x06. -/
  | svrMainAddr
  /-- SVR_SEC_ADDR, address 0x07. -/
  | svrSecAddr
  /-- DSP_WRITE, address 0x08, with its message of DSP_MSG_SIZE bytes. -/
  | dspWrite (msg : List Byte)
  /-- RADIO_STATUS, address 0x09. -/
  | radioStatus (v : Byte)
  /-- RADIO_STRENGTH, address 0x0A. -/
  | radioStrength (v : Byte)
  /-- UNMAPPED_LO_0B, address 0x0B. -/
  | unmappedLo0B
  /-- UNMAPPED_LO_0C, addresses 0x0C to 0x0F; `lo` is address bits 1:0. -/
  | unmappedLo0C (lo : BitVec 2)
  /-- UNMAPPED_LO_10, addresses 0x10 to 0x1F; `lo` is address bits 3:0. -/
  | unmappedLo10 (lo : BitVec 4)
  /-- UNMAPPED_HI, addresses 0x80 to 0xFF, and every address outside the three rows above that another map
  leaves unmapped (notes/assumptions/19.md); `a` is the address. -/
  | unmappedHi (a : Byte)
  /-- POINT_DESC_(i+1), address 0x20 + i. -/
  | pointDesc (i : BitVec 8)
  /-- READ_POINT_DATA_(i+1), address 0x40 + i. -/
  | readPointData (i : BitVec 8)
  /-- WRITE_POINT_DATA_(i+1), address 0x60 + i; `x` is the decoded value, `none` when the index is not
  below the responder's point count and the payload was not decoded (41_codec.md R214). -/
  | writePointData (i : BitVec 8) (x : Option Value)
  /-- FSM_INIT, state code 0. -/
  | fsmInit
  /-- FSM_SEND_ITF_VER, state code 1. -/
  | fsmSendItfVer
  /-- FSM_WAIT_ITF_VER_ANS, state code 2. -/
  | fsmWaitItfVerAns
  /-- FSM_PROC_ITF_VER, state code 3. -/
  | fsmProcItfVer
  /-- FSM_SEND_BRD_ID, state code 4. -/
  | fsmSendBrdId
  /-- FSM_WAIT_BRD_ID_ANS, state code 5. -/
  | fsmWaitBrdIdAns
  /-- FSM_PROC_BRD_ID, state code 6. -/
  | fsmProcBrdId
  /-- FSM_SEND_PT_DESC, state code 7. -/
  | fsmSendPtDesc
  /-- FSM_WAIT_PT_DESC_ANS, state code 8. -/
  | fsmWaitPtDescAns
  /-- FSM_PROC_PT_DESC, state code 9. -/
  | fsmProcPtDesc
  /-- FSM_BUILD_SCH, state code 10. -/
  | fsmBuildSch
  /-- FSM_RUN_SCH, state code 11. -/
  | fsmRunSch
  /-- FSM_SEND_PT_VAL, state code 12. -/
  | fsmSendPtVal
  /-- FSM_WAIT_PT_VAL_ANS, state code 13. -/
  | fsmWaitPtValAns
  /-- FSM_PROC_PT_VAL, state code 14. -/
  | fsmProcPtVal
  deriving DecidableEq, Repr

end Sys2Proof
end

