-- ==== Sys2Proof/WellFormed.lean ====
section
/-!
DEFINITION. Which instructions are well formed under protocol parameters and a responder's view of its
points. The operand types leave these to check: the length of a display message, the point index, the
address of an unmapped request (30_encoding.md R131) and the value of a point write
(41_codec.md R210, R214).
-/

namespace Sys2Proof

/-- A point index is below `MAX_POINTS` (00_scope.md R8) and a display message has its size (R14). A write to
a point of the database carries a value of that point's datatype; a write to an index at or above the point
count carries none, since its payload is not decoded (41_codec.md R214, R215). The address of an unmapped
request is unmapped and lies in its row. -/
def Instr.wf (p : Protocol) (v : PointView) : Instr → Bool
  | .unmappedLo0B => classify p UnmappedRow.addr0B == .unmapped
  | .unmappedLo0C lo => classify p (UnmappedRow.addr0C lo) == .unmapped
  | .unmappedLo10 lo => classify p (UnmappedRow.addr10 lo) == .unmapped
  | .unmappedHi a => classify p a == .unmapped && UnmappedRow.ofAddr a == .hi
  | .writePointData i none => decide (i.toNat < p.maxPoints) && !decide (i.toNat < v.count)
  | .writePointData i (some x) =>
    decide (i.toNat < p.maxPoints) && v.dtOf i.toNat == some x.dt && x.fits p
  | .dspWrite msg => msg.length == p.fieldSizes.dspMsg
  | .itfVersion | .brdId | .brdStatus | .brdCmd _ | .batStatus | .batCharge | .svrMainAddr
  | .svrSecAddr | .radioStatus _ | .radioStrength _ => true
  | .pointDesc i | .readPointData i => decide (i.toNat < p.maxPoints)
  | .fsmInit | .fsmSendItfVer | .fsmWaitItfVerAns | .fsmProcItfVer | .fsmSendBrdId
  | .fsmWaitBrdIdAns | .fsmProcBrdId | .fsmSendPtDesc | .fsmWaitPtDescAns | .fsmProcPtDesc
  | .fsmBuildSch | .fsmRunSch | .fsmSendPtVal | .fsmWaitPtValAns | .fsmProcPtVal => true

end Sys2Proof
end

