-- ==== Sys2Proof/Decode.lean ====
section
/-!
DEFINITION. Decoding and encoding. The block has two kinds of encoded instruction (10_state.md R40): a
request frame, selected by its address byte, and the 4-bit code of the poller's state register. Decoding
is total: every byte sequence and every code is an instruction or is rejected by name. The encoder is
written from the same tables and stands after the decoder.
-/

namespace Sys2Proof

/-- An encoded instruction. -/
inductive Encoded where
  /-- A request frame, offset 0 first (30_encoding.md R120). -/
  | frame (f : Frame)
  /-- The contents of the 4-bit state register (30_encoding.md R170). -/
  | stateCode (c : BitVec 4)
  deriving DecidableEq, Repr

/-- Why an encoding is no instruction. -/
inductive DecodeError where
  /-- `unpack_request` raises this error (41_codec.md R212). -/
  | codec (e : CodecError)
  /-- State code 15, which is never written (30_encoding.md R170). -/
  | illegalStateCode
  deriving DecidableEq, Repr

/-! ### Decoding -/

/-- The request of the unmapped row an address belongs to (30_encoding.md R130). -/
def unmappedRequest (a : Byte) : Instr :=
  match UnmappedRow.ofAddr a with
  | .lo0B => .unmappedLo0B
  | .lo0C => .unmappedLo0C (a.extractLsb' 0 2)
  | .lo10 => .unmappedLo10 (a.extractLsb' 0 4)
  | .hi => .unmappedHi a

/-- The request of a singleton register whose payload has its request length
(30_encoding.md R140 to R151). -/
def singletonRequest (r : Singleton) (pl : List Byte) : Instr :=
  match r with
  | .itfVersion => .itfVersion
  | .brdId => .brdId
  | .brdStatus => .brdStatus
  | .brdCmd => .brdCmd (pl.getD 0 0)
  | .batStatus => .batStatus
  | .batCharge => .batCharge
  | .svrMainAddr => .svrMainAddr
  | .svrSecAddr => .svrSecAddr
  | .dspWrite => .dspWrite pl
  | .radioStatus => .radioStatus (pl.getD 0 0)
  | .radioStrength => .radioStrength (pl.getD 0 0)

/-- The request to an invalid address, which carries no payload whatever its frame held
(41_codec.md R214). A singleton is never invalid (30_encoding.md R132), so its arm is not reached. -/
def invalidRequest (p : Protocol) (a : Byte) : Except CodecError Instr :=
  match classify p a with
  | .pointDesc i => .ok (.pointDesc i)
  | .readPoint i => .ok (.readPointData i)
  | .writePoint i => .ok (.writePointData i none)
  | .singleton _ => .error (.malformed a.toNat)
  | .unmapped => .ok (unmappedRequest a)

/-- The request to a valid address: its payload must have the length of the address's shape, and is
decoded by it (41_codec.md R210, R215). An unmapped address is never valid (30_encoding.md R132), so its
arm is not reached. DESIGN CHOICE (notes/assumptions/21.md): a write to a point below NP for which `dt_of`
has no value, because its database entry is missing or has an illegal type code, raises `Malformed` with
the address. R210 takes the value of `dt_of` there, and no rule says what happens without one
(93_implementation_defined.md I30, I31). -/
def validRequest (p : Protocol) (v : PointView) (a : Byte) (pl : List Byte) :
    Except CodecError Instr :=
  match classify p a with
  | .singleton r =>
    if pl.length ≠ reqLen p (.singleton r) .u8 then .error (.malformed pl.length)
    else .ok (singletonRequest r pl)
  | .pointDesc i =>
    if pl.length ≠ reqLen p (.pointDesc i) .u8 then .error (.malformed pl.length)
    else .ok (.pointDesc i)
  | .readPoint i =>
    if pl.length ≠ reqLen p (.readPoint i) .u8 then .error (.malformed pl.length)
    else .ok (.readPointData i)
  | .writePoint i =>
    match v.dtOf i.toNat with
    | none => .error (.malformed a.toNat)
    | some dt =>
      if pl.length ≠ reqLen p (.writePoint i) dt then .error (.malformed pl.length)
      else .ok (.writePointData i (some (Value.ofBytes dt pl)))
  | .unmapped => .error (.malformed a.toNat)

/-- `unpack_request(buf, n)` with `n` the length of `buf` (41_codec.md R210); the instruction is the
decoded request. `v` is the responder's view of its points. -/
def decodeRequest (p : Protocol) (v : PointView) (buf : Frame) : Except CodecError Instr :=
  match checkFrame p.crc 2 buf with
  | .error e => .error e
  | .ok body =>
    if validAddr p v.count (body.getD 1 0) then validRequest p v (body.getD 1 0) (body.drop 2)
    else invalidRequest p (body.getD 1 0)

/-- The handler a state code selects (30_encoding.md R170); code 15 selects none. -/
def decodeState (c : BitVec 4) : Option Instr :=
  match c.toNat with
  | 0 => some .fsmInit
  | 1 => some .fsmSendItfVer
  | 2 => some .fsmWaitItfVerAns
  | 3 => some .fsmProcItfVer
  | 4 => some .fsmSendBrdId
  | 5 => some .fsmWaitBrdIdAns
  | 6 => some .fsmProcBrdId
  | 7 => some .fsmSendPtDesc
  | 8 => some .fsmWaitPtDescAns
  | 9 => some .fsmProcPtDesc
  | 10 => some .fsmBuildSch
  | 11 => some .fsmRunSch
  | 12 => some .fsmSendPtVal
  | 13 => some .fsmWaitPtValAns
  | 14 => some .fsmProcPtVal
  | _ => none

/-- Decoding, total on every frame and every state code. -/
def decode (p : Protocol) (v : PointView) : Encoded → Except DecodeError Instr
  | .frame f =>
    match decodeRequest p v f with
    | .ok i => .ok i
    | .error e => .error (.codec e)
  | .stateCode c =>
    match decodeState c with
    | some i => .ok i
    | none => .error .illegalStateCode

/-! ### Encoding -/

/-- The encoding of an instruction: `pack_request` of its address and payload (41_codec.md R205, R208),
or its state code (30_encoding.md R170). -/
def encode (p : Protocol) : Instr → Encoded
  | .itfVersion => .frame (packRequest p.crc p.addrs.itfVersion [])
  | .brdId => .frame (packRequest p.crc p.addrs.brdId [])
  | .brdStatus => .frame (packRequest p.crc p.addrs.brdStatus [])
  | .brdCmd cmd => .frame (packRequest p.crc p.addrs.brdCmd [cmd])
  | .batStatus => .frame (packRequest p.crc p.addrs.batStatus [])
  | .batCharge => .frame (packRequest p.crc p.addrs.batCharge [])
  | .svrMainAddr => .frame (packRequest p.crc p.addrs.svrMainAddr [])
  | .svrSecAddr => .frame (packRequest p.crc p.addrs.svrSecAddr [])
  | .dspWrite msg => .frame (packRequest p.crc p.addrs.dspWrite msg)
  | .radioStatus v => .frame (packRequest p.crc p.addrs.radioStatus [v])
  | .radioStrength v => .frame (packRequest p.crc p.addrs.radioStrength [v])
  | .unmappedLo0B => .frame (packRequest p.crc UnmappedRow.addr0B [])
  | .unmappedLo0C lo => .frame (packRequest p.crc (UnmappedRow.addr0C lo) [])
  | .unmappedLo10 lo => .frame (packRequest p.crc (UnmappedRow.addr10 lo) [])
  | .unmappedHi a => .frame (packRequest p.crc a [])
  | .pointDesc i => .frame (packRequest p.crc (p.addrs.pointDescBase + i) [])
  | .readPointData i => .frame (packRequest p.crc (p.addrs.readPointDataBase + i) [])
  | .writePointData i none => .frame (packRequest p.crc (p.addrs.writePointDataBase + i) [])
  | .writePointData i (some x) => .frame (packRequest p.crc (p.addrs.writePointDataBase + i) (x.bytes p))
  | .fsmInit => .stateCode 0
  | .fsmSendItfVer => .stateCode 1
  | .fsmWaitItfVerAns => .stateCode 2
  | .fsmProcItfVer => .stateCode 3
  | .fsmSendBrdId => .stateCode 4
  | .fsmWaitBrdIdAns => .stateCode 5
  | .fsmProcBrdId => .stateCode 6
  | .fsmSendPtDesc => .stateCode 7
  | .fsmWaitPtDescAns => .stateCode 8
  | .fsmProcPtDesc => .stateCode 9
  | .fsmBuildSch => .stateCode 10
  | .fsmRunSch => .stateCode 11
  | .fsmSendPtVal => .stateCode 12
  | .fsmWaitPtValAns => .stateCode 13
  | .fsmProcPtVal => .stateCode 14

/-! ### The opcode table's words (notes/assumptions/8.md) -/

/-- The responder's view of the points of a configuration (41_codec.md R201). -/
def Config.view (c : Config) : PointView :=
  { count := c.np, types := c.points.map fun e => Datatype.ofCode c.toProtocol e.desc.dtype }

/-- The request frame an opcode-table address stands for: that address with a payload of zeros of the
length its shape has for the responder's points, and a correct CRC. -/
def tableFrame (p : Protocol) (v : PointView) (a : Byte) : Frame :=
  packRequest p.crc a (List.replicate
    (if validAddr p v.count a then
      reqLen p (classify p a) (match classify p a with
        | .writePoint i => (v.dtOf i.toNat).getD .u8
        | _ => .u8)
     else 0) 0)

/-- The encoding an opcode-table word stands for. A row of 8 bits is a request, and its word is the
address byte; a row of fewer bits is a poller state, and its word is the state code. -/
def tableEncoded (p : Protocol) (v : PointView) (nbits w : Nat) : Encoded :=
  if nbits < 8 then .stateCode (BitVec.ofNat 4 w) else .frame (tableFrame p v (BitVec.ofNat 8 w))

/-- The instruction the decoder reads from an opcode-table word, for the responder of the reference
configuration. -/
def decodeTableWord (nbits w : Nat) : Option Instr :=
  match decode Protocol.reference Config.reference.view
      (tableEncoded Protocol.reference Config.reference.view nbits w) with
  | .ok i => some i
  | .error _ => none

end Sys2Proof
end

