-- ==== Sys2Proof/Machine/State.lean ====
section
/-!
DEFINITION. The state of the block as plain data (10_state.md), the input events, the reasons a step can
stop, and the state after reset.
-/

namespace Sys2Proof.Machine

/-- A receive buffer's bytes: (offset, byte) pairs, offsets strictly rising, no pair whose byte is what
an unlisted offset reads as (20_memory.md R90 item 4). The operations and the canonical form are in
Machine/Ops.lean. -/
abbrev Memory := List Host.Cell

/-- One discovered point of the poller; `value` is `none` until its first matched read
(10_state.md R45, R50). -/
structure PointEntry where
  desc : PointDesc
  value : Option Value
  deriving DecidableEq, Repr

/-- One entry of the acquisition schedule (10_state.md R46, 44_scheduler.md R321). -/
structure SchedEntry where
  idx : BitVec 8
  interval : BitVec 8
  countdown : BitVec 8
  deriving DecidableEq, Repr

/-- The poller's registers (10_state.md section 2). -/
structure Poller where
  /-- `state`, the 4-bit state register (R41, 30_encoding.md R170). -/
  state : BitVec 4
  /-- `brd`, the board identity read from the responder (R43). -/
  brd : Option BoardId
  /-- `pt_count`, the number of descriptors discovered and the discovery index (R44). -/
  ptCount : BitVec 8
  /-- `pt_table`, the point control table, of `MAX_POINTS` entries (R45). -/
  ptTable : List (Option PointEntry)
  /-- `sched`, the acquisition schedule (R46). -/
  sched : List SchedEntry
  /-- `due`, the due list of the current round (R47). -/
  due : List (BitVec 8)
  /-- `cursor`, the position in `due` (R48). -/
  cursor : BitVec 8
  /-- `retries`, the attempts of the current point request (R49). -/
  retries : BitVec 8
  /-- `tick_cnt`, the ticks spent waiting (R51). -/
  tickCnt : BitVec 32
  /-- `timeout_ticks`, the armed timeout (R52). -/
  timeoutTicks : BitVec 32
  /-- `rx_buf`, the receive buffer (R53). -/
  rxBuf : Memory
  /-- `rx_count`, its byte counter (R53). -/
  rxCount : BitVec 16
  /-- `frame_arrived` (R54). -/
  frameArrived : Bool
  deriving DecidableEq, Repr

/-- The responder's registers (10_state.md section 3); its configuration is in `State.cfg`. -/
structure Responder where
  /-- `brd_status` (R61). -/
  brdStatus : Byte
  /-- `bat_status` (R61). -/
  batStatus : Byte
  /-- `bat_charge` (R61). -/
  batCharge : Byte
  /-- `svr_main` (R61). -/
  svrMain : List Byte
  /-- `svr_sec` (R61). -/
  svrSec : List Byte
  /-- `pt_db`, the point database (R62). -/
  ptDb : List DbEntry
  /-- `srx_buf`, the receive buffer (R63). -/
  srxBuf : Memory
  /-- `srx_count`, its byte counter (R63). -/
  srxCount : BitVec 16
  deriving DecidableEq, Repr

/-- What one `APP_SET` writes (42_dispatcher.md R234). -/
inductive AppField where
  | brdStatus (v : Byte)
  | batStatus (v : Byte)
  | batCharge (v : Byte)
  | svrMain (a : List Byte)
  | svrSec (a : List Byte)
  | pointValue (i : BitVec 8) (x : Value)
  deriving DecidableEq, Repr

/-- The input events (10_state.md R80, 70_reset_and_hazards.md R380). -/
inductive Event where
  /-- `RESET`, for the poller and the responder at once. -/
  | reset
  /-- `TICK` to the poller. -/
  | tick
  /-- `RX_BYTE(b)` on the mote side. -/
  | pollerRxByte (b : Byte)
  /-- `RX_IDLE` on the mote side. -/
  | pollerRxIdle
  /-- `RX_BYTE(b)` on the sensor side. -/
  | responderRxByte (b : Byte)
  /-- `RX_IDLE` on the sensor side. -/
  | responderRxIdle
  /-- `APP_SET` of the sensor application. -/
  | appSet (f : AppField)
  deriving DecidableEq, Repr

/-- The state of one poller and one responder with their configuration, their link outputs and the input
events still to come (notes/assumptions/1.md, 2.md, 3.md). -/
structure State where
  /-- The configuration, constant while the block runs (00_scope.md section 4). -/
  cfg : Config
  poller : Poller
  responder : Responder
  /-- The CRC unit's register (10_state.md R65); between frames it holds a free value. DESIGN CHOICE
  (notes/assumptions/5.md): R65 gives the CRC unit one register and 10_state.md R78 assigns it to neither
  unit, while the units share no state (60_exceptions.md R366). The model keeps one per State, which the
  codec operations of both units write; nothing reads it. -/
  crc : BitVec 16
  /-- The MODEL's own field: how many free values of `crc` have been used (notes/assumptions/5.md). -/
  crcSeq : Nat
  /-- The MODEL's own field: how many times a poller handler has read what may be a value the spec does not
  state; the free values are applied to it (notes/assumptions/20.md). -/
  freeSeq : Nat
  /-- The MODEL's own field: the input events still to be presented, the next one first. -/
  events : List Event
  /-- The frames the poller has written to the link, oldest first (`TX` of 10_state.md R80). -/
  pTx : List Frame
  /-- The frames the responder has written to the link, oldest first. -/
  rTx : List Frame
  deriving DecidableEq, Repr

/-- Why a step stops with a fault. No fault is reachable from a state that keeps the invariant of
Safety.lean, and every one of them is safe: the model stops where the spec gives no effect. -/
inductive Fault where
  /-- A step finds code 15 in the state register (30_encoding.md R170). Safe. -/
  | illegalState
  /-- The driver selects a table entry marked unused (43_poller_fsm.md R273). Safe. -/
  | unusedTransition
  /-- A receive buffer is read at or above RX_BUF_SIZE, where no byte exists (20_memory.md R90). Safe. -/
  | bufferBounds
  /-- The dispatcher finds no database entry below NP, so NP is not the number of configured points
  (70_reset_and_hazards.md R385). Safe. -/
  | pointMissing
  deriving DecidableEq, Repr

/-- Why a step or an instruction is refused. Every refusal is safe: the model gives no behaviour. -/
inductive Refusal where
  /-- An instruction that has no meaning in this model; no arm of exec answers it. Safe. -/
  | notModelled (mnemonic : String)
  /-- The configuration breaks 70_reset_and_hazards.md R385 or a condition of notes/assumptions/7.md; raised
  by every step. Safe. -/
  | badConfiguration
  /-- `APP_SET` of a value at an index at or above NP (42_dispatcher.md R234). Safe. -/
  | appSetNoSuchPoint
  /-- `APP_SET` of a value whose datatype or width is not the point's (60_exceptions.md R372). Safe. -/
  | appSetWrongDatatype
  /-- `APP_SET` of a server address whose length is not `SVR_ADDR_SIZE`; the field takes any value of its
  width (60_exceptions.md R372). Safe. -/
  | appSetWrongLength
  /-- A point write whose operand is not a value of the point's datatype, which no decoder produces
  (41_codec.md R215). Safe. -/
  | illFormedWrite
  /-- A request of an unmapped row whose operand is a mapped address, or of a point row whose index is not
  below `MAX_POINTS`, which no decoder produces (30_encoding.md R131). Safe. -/
  | illFormedAddress
  deriving DecidableEq, Repr

/-- The poller of a configuration with `MAX_POINTS` = `n` after `RESET` (70_reset_and_hazards.md R381). -/
def Poller.reset (n : Nat) : Poller where
  state := 0
  brd := none
  ptCount := 0
  ptTable := List.replicate n none
  sched := []
  due := []
  cursor := 0
  retries := 0
  tickCnt := 0
  timeoutTicks := 0
  rxBuf := []
  rxCount := 0
  frameArrived := false

/-- The responder of a configuration after `RESET` (70_reset_and_hazards.md R382). -/
def Responder.reset (c : Config) : Responder where
  brdStatus := c.brdStatus
  batStatus := c.batStatus
  batCharge := c.batCharge
  svrMain := c.svrMain
  svrSec := c.svrSec
  ptDb := c.points
  srxBuf := []
  srxCount := 0

/-- The state after `RESET` for a configuration, before any event. -/
def State.boot (c : Config) : State where
  cfg := c
  poller := Poller.reset c.maxPoints
  responder := Responder.reset c
  crc := 0
  crcSeq := 0
  freeSeq := 0
  events := []
  pTx := []
  rTx := []

/-- The machine right after reset, for the reference configuration (notes/assumptions/4.md). -/
def State.reset : State := State.boot Config.reference

end Sys2Proof.Machine
end

