-- ==== Sys2Proof/Machine/Ops.lean ====
section
/-!
DEFINITION. The named operations over the state: the receive-buffer memory, one named update per thing a
rule writes, the common transmit actions of both sides, `WAIT_ANS`, and the session reset, which is the
block's only trap entry.
-/

namespace Sys2Proof.Machine

/-! ### Receive-buffer memory (20_memory.md R90 item 4, R95) -/

/-- What a buffer offset that nothing has written reads as. DESIGN CHOICE (notes/assumptions/6.md): the
spec leaves the contents unspecified (10_state.md R53) and no rule reads such a byte. -/
def unwrittenByte : Byte := 0x00

/-- The byte at offset `a`. -/
def Memory.read : Memory → Nat → Byte
  | [], _ => unwrittenByte
  | (k, v) :: m, a => if k = a then v else Memory.read m a

/-- Puts `(a, b)` in front of `m`, unless `b` is what an unlisted offset reads as. -/
def Memory.cons (a : Nat) (b : Byte) (m : Memory) : Memory :=
  if b = unwrittenByte then m else (a, b) :: m

/-- Stores byte `b` at offset `a`, keeping the canonical form. -/
def Memory.write : Memory → Nat → Byte → Memory
  | [], a, b => Memory.cons a b []
  | (k, v) :: m, a, b =>
    if a < k then Memory.cons a b ((k, v) :: m)
    else if a = k then Memory.cons a b m
    else (k, v) :: Memory.write m a b

/-- The canonical form: offsets strictly rising, no entry equal to what an unlisted offset reads as. -/
abbrev Memory.wf (m : Memory) : Prop :=
  m.Pairwise (fun x y => x.1 < y.1) ∧ ∀ c ∈ m, c.2 ≠ unwrittenByte

/-- The `n` bytes from offset `off`. -/
def Memory.bytes (m : Memory) (off n : Nat) : Frame :=
  (List.range n).map fun k => Memory.read m (off + k)

/-- `MemRead(buf, off, n)` on a buffer of `size` bytes (20_memory.md R95): nothing exists at or above
`size`. -/
def memRead (size : Nat) (m : Memory) (off n : Nat) : Option Frame :=
  if off + n ≤ size then some (Memory.bytes m off n) else none

/-! ### Poller updates -/

/-- `state <- c`. -/
def Poller.goto (p : Poller) (c : BitVec 4) : Poller := { p with state := c }

/-- What `INIT` resets with `MAX_POINTS` = `n` (43_poller_fsm.md R275): everything but the receive path. -/
def Poller.clearSession (p : Poller) (n : Nat) : Poller :=
  { p with
    brd := none, ptCount := 0, ptTable := List.replicate n none, sched := [], due := [],
    cursor := 0, retries := 0, tickCnt := 0, timeoutTicks := 0 }

/-- What `send` does to the poller's registers (43_poller_fsm.md R274). -/
def Poller.arm (p : Poller) (timeout : BitVec 32) : Poller :=
  { p with rxCount := 0, frameArrived := false, tickCnt := 0, timeoutTicks := timeout }

/-- `tick_cnt <- tick_cnt + 1`. -/
def Poller.countTick (p : Poller) : Poller := { p with tickCnt := p.tickCnt + 1 }

/-- `retries <- retries + 1`. -/
def Poller.countRetry (p : Poller) : Poller := { p with retries := p.retries + 1 }

/-- `brd <- some b`. -/
def Poller.setBoard (p : Poller) (b : BoardId) : Poller := { p with brd := some b }

/-- `pt_count <- 0`. -/
def Poller.clearCount (p : Poller) : Poller := { p with ptCount := 0 }

/-- An accepted descriptor (43_poller_fsm.md R295); an index past the end of the table has no entry to write
(notes/assumptions/20.md). -/
def Poller.addPoint (p : Poller) (d : PointDesc) : Poller :=
  { p with
    ptTable := p.ptTable.set p.ptCount.toNat (some { desc := d, value := none }),
    ptCount := p.ptCount + 1, retries := 0 }

/-- `BUILD_SCH`'s writes (43_poller_fsm.md R300). -/
def Poller.setSchedule (p : Poller) (sch : List SchedEntry) : Poller :=
  { p with sched := sch, due := [], cursor := 0, retries := 0 }

/-- `schedule_tick`'s writes (44_scheduler.md R322, 43_poller_fsm.md R302). -/
def Poller.setDue (p : Poller) (sch : List SchedEntry) (due : List (BitVec 8)) : Poller :=
  { p with sched := sch, due := due }

/-- The start of an acquisition round (43_poller_fsm.md R302). -/
def Poller.startRound (p : Poller) : Poller := { p with cursor := 0, retries := 0 }

/-- `pt_table[i].value <- some x` (43_poller_fsm.md R311); where the table has no entry `i` there is nothing to
write (notes/assumptions/20.md). -/
def Poller.setValue (p : Poller) (i : Nat) (x : Value) : Poller :=
  { p with
    ptTable := match p.ptTable[i]? with
      | some (some e) => p.ptTable.set i (some { e with value := some x })
      | _ => p.ptTable }

/-- `cursor <- cursor + 1`. -/
def Poller.advance (p : Poller) : Poller := { p with cursor := p.cursor + 1 }

/-- `retries <- 0`. -/
def Poller.clearRetries (p : Poller) : Poller := { p with retries := 0 }

/-- `rx_buf[rx_count] <- b; rx_count <- rx_count + 1` (10_state.md R81). -/
def Poller.push (p : Poller) (b : Byte) : Poller :=
  { p with rxBuf := Memory.write p.rxBuf p.rxCount.toNat b, rxCount := p.rxCount + 1 }

/-- `frame_arrived <- 1` (10_state.md R82). -/
def Poller.flagFrame (p : Poller) : Poller := { p with frameArrived := true }

/-! ### Responder updates -/

/-- `srx_buf[srx_count] <- b; srx_count <- srx_count + 1` (42_dispatcher.md R230). -/
def Responder.push (r : Responder) (b : Byte) : Responder :=
  { r with srxBuf := Memory.write r.srxBuf r.srxCount.toNat b, srxCount := r.srxCount + 1 }

/-- `srx_count <- 0` (42_dispatcher.md R231). -/
def Responder.consume (r : Responder) : Responder := { r with srxCount := 0 }

/-- `pt_db[i].value <- x` (42_dispatcher.md R250, R234). -/
def Responder.setValue (r : Responder) (i : Nat) (x : Value) : Responder :=
  { r with ptDb := r.ptDb.modify i fun e => { e with value := x } }

/-! ### State updates -/

/-- Replaces the poller's registers. -/
def State.withPoller (s : State) (p : Poller) : State := { s with poller := p }

/-- Replaces the responder's registers. -/
def State.withResponder (s : State) (r : Responder) : State := { s with responder := r }

/-- Replaces the input events still to come. -/
def State.withEvents (s : State) (es : List Event) : State := { s with events := es }

/-- `emit TX(f)` of the poller (00_scope.md R24). -/
def State.emitP (s : State) (f : Frame) : State := { s with pTx := s.pTx ++ [f] }

/-- `emit TX(f)` of the responder (00_scope.md R24). -/
def State.emitR (s : State) (f : Frame) : State := { s with rTx := s.rTx ++ [f] }

/-- The end of a codec operation: the CRC register's value is not architectural between frames
(10_state.md R65), so it becomes a free value. -/
def State.crcIdle (s : State) : State :=
  { s with crc := Config.crcBetweenFrames s.crcSeq, crcSeq := s.crcSeq + 1 }

/-! ### Reads that may find no value (10_state.md R50, notes/assumptions/20.md) -/

/-- The state after a handler has read what may be a free value: the next read finds a fresh one. -/
def State.nextFree (s : State) : State := { s with freeSeq := s.freeSeq + 1 }

/-- `brd.num_of_points`: unknown while `brd` is `none`. -/
def State.numOfPoints (s : State) : Byte :=
  match s.poller.brd with
  | some b => b.numOfPoints
  | none => Config.unknownNumOfPoints s.freeSeq

/-- `pt_table[i].desc`: unknown where the poller holds no entry. -/
def State.descAt (s : State) (i : Nat) : PointDesc :=
  match s.poller.ptTable[i]? with
  | some (some e) => e.desc
  | _ => Config.unknownDesc s.freeSeq i

/-- `due[cursor]`: not stated past the end of the list. -/
def State.dueIndex (s : State) : BitVec 8 :=
  s.poller.due[s.poller.cursor.toNat]?.getD (Config.unknownDueIndex s.freeSeq)

/-- `r.desc`: not stated where the response has another shape. -/
def State.descIn (s : State) : RspFields → PointDesc
  | .desc d => d
  | .none | .version _ | .board _ | .brdStatus _ | .batStatus _ | .batCharge _ | .svrMain _ | .svrSec _
  | .value _ => Config.unknownDesc s.freeSeq s.poller.ptCount.toNat

/-- `r.value`: not stated where the response has another shape. -/
def State.valueIn (s : State) : RspFields → Value
  | .value x => x
  | .none | .version _ | .board _ | .brdStatus _ | .batStatus _ | .batCharge _ | .svrMain _ | .svrSec _
  | .desc _ => Config.unknownValue s.freeSeq

/-! ### Views and frames -/

/-- The responder's view of its points (41_codec.md R201). -/
def State.responderView (s : State) : PointView where
  count := s.cfg.np
  types := s.responder.ptDb.map fun e => Datatype.ofCode s.cfg.toProtocol e.desc.dtype

/-- The poller's view of the points it has discovered (41_codec.md R201). -/
def State.pollerView (s : State) : PointView where
  count := s.poller.ptCount.toNat
  types := s.poller.ptTable.map fun e => e.bind fun e => Datatype.ofCode s.cfg.toProtocol e.desc.dtype

/-- `rx_buf[0 .. rx_count)`. -/
def State.pollerFrame (s : State) : Option Frame :=
  memRead s.cfg.rxBufSize s.poller.rxBuf 0 s.poller.rxCount.toNat

/-- `srx_buf[0 .. srx_count)`. -/
def State.responderFrame (s : State) : Option Frame :=
  memRead s.cfg.rxBufSize s.responder.srxBuf 0 s.responder.srxCount.toNat

/-! ### Transmitting -/

/-- `send(pack_request(addr))`, the transmit action of every `SEND_*` handler (43_poller_fsm.md R274);
the poller's requests carry no payload. -/
def State.send (s : State) (addr : Byte) : State :=
  ((s.withPoller (s.poller.arm (BitVec.ofNat 32 s.cfg.timeoutTicks))).emitP
    (packRequest s.cfg.crc addr [])).crcIdle

/-- The response the dispatcher's answer becomes (42_dispatcher.md R231, 60_exceptions.md R346): an
error is the response's status. -/
def replyFrame (p : Protocol) (addr : Byte) : Except DispatchError RspFields → Frame
  | .ok fields => packResponse p addr p.status.ok fields
  | .error e => packResponse p addr (e.status p.status) .none

/-- `emit TX(pack_response(addr, st, fields))` (42_dispatcher.md R231). -/
def State.respond (s : State) (addr : Byte) (r : Except DispatchError RspFields) : State :=
  (s.emitR (replyFrame s.cfg.toProtocol addr r)).crcIdle

/-! ### Handlers -/

/-- What a poller state handler leaves: the state, the result the driver consumes, and the error of
60_exceptions.md R342 it detected, which nothing records. -/
structure Handled where
  state : State
  result : HandlerResult
  error : Option BlockError

/-- `WAIT_ANS`, shared by the four wait states (43_poller_fsm.md R276). -/
def waitAns (s : State) : Handled :=
  if s.poller.frameArrived then { state := s, result := .waitStop, error := none }
  else
    let p := s.poller.countTick
    if p.timeoutTicks < p.tickCnt then
      if p.rxCount ≠ 0 then { state := s.withPoller p, result := .waitStop, error := none }
      else { state := s.withPoller p, result := .waitAbort, error := some .protocolTimeout }
    else { state := s.withPoller p, result := .waitOk, error := none }

/-- The session reset, the block's only trap entry (60_exceptions.md R355): nothing is saved, `state`
becomes the error target, every other field keeps its value until `INIT` runs on the next tick. There is
no return from it (R356). -/
def State.takeError (s : State) (target : BitVec 4) : State := s.withPoller (s.poller.goto target)

end Sys2Proof.Machine
end

