-- ==== Sys2Proof/Machine/Fsm.lean ====
section
/-!
DEFINITION. The poller's states, its constant transition table and the driver that applies a handler's
result (43_poller_fsm.md R270 to R273).
-/

namespace Sys2Proof.Machine

/-- The 15 states (10_state.md R41). -/
inductive FsmState where
  | init | sendItfVer | waitItfVerAns | procItfVer | sendBrdId | waitBrdIdAns | procBrdId
  | sendPtDesc | waitPtDescAns | procPtDesc | buildSch | runSch | sendPtVal | waitPtValAns | procPtVal
  deriving DecidableEq, Repr

/-- The state's code (30_encoding.md R170). -/
def FsmState.code : FsmState → BitVec 4
  | .init => 0 | .sendItfVer => 1 | .waitItfVerAns => 2 | .procItfVer => 3 | .sendBrdId => 4
  | .waitBrdIdAns => 5 | .procBrdId => 6 | .sendPtDesc => 7 | .waitPtDescAns => 8 | .procPtDesc => 9
  | .buildSch => 10 | .runSch => 11 | .sendPtVal => 12 | .waitPtValAns => 13 | .procPtVal => 14

/-- An entry of the transition table; `unused` entries are there only so that the table is total
(43_poller_fsm.md R273). -/
inductive FsmTarget where
  | used (t : FsmState)
  | unused (t : FsmState)
  deriving DecidableEq, Repr

/-- One row of the transition table. -/
structure FsmRow where
  next : FsmTarget
  abort : FsmTarget
  error : FsmState
  deriving DecidableEq, Repr

/-- The transition table (43_poller_fsm.md R272). It is constant (10_state.md R56). -/
def fsmRow : FsmState → FsmRow
  | .init => ⟨.used .sendItfVer, .unused .init, .init⟩
  | .sendItfVer => ⟨.used .waitItfVerAns, .unused .init, .init⟩
  | .waitItfVerAns => ⟨.used .procItfVer, .used .sendItfVer, .init⟩
  | .procItfVer => ⟨.used .sendBrdId, .unused .init, .init⟩
  | .sendBrdId => ⟨.used .waitBrdIdAns, .unused .init, .init⟩
  | .waitBrdIdAns => ⟨.used .procBrdId, .used .sendBrdId, .init⟩
  | .procBrdId => ⟨.used .sendPtDesc, .unused .init, .init⟩
  | .sendPtDesc => ⟨.used .waitPtDescAns, .used .buildSch, .init⟩
  | .waitPtDescAns => ⟨.used .procPtDesc, .used .sendPtDesc, .init⟩
  | .procPtDesc => ⟨.used .sendPtDesc, .unused .init, .init⟩
  | .buildSch => ⟨.used .runSch, .unused .init, .init⟩
  | .runSch => ⟨.unused .runSch, .used .sendPtVal, .init⟩
  | .sendPtVal => ⟨.used .waitPtValAns, .used .runSch, .init⟩
  | .waitPtValAns => ⟨.used .procPtVal, .used .sendPtVal, .init⟩
  | .procPtVal => ⟨.used .sendPtVal, .unused .init, .init⟩

/-- `state <- t` for a table entry; an unused entry faults (43_poller_fsm.md R273,
93_implementation_defined.md I22). -/
def State.follow (s : State) : FsmTarget → Host.Outcome State Fault Refusal
  | .used t => .next (s.withPoller (s.poller.goto t.code))
  | .unused _ => .fault .unusedTransition

/-- The driver (43_poller_fsm.md R270): applies the result of the handler of state `f`. -/
def drive (f : FsmState) (h : Handled) : Host.Outcome State Fault Refusal :=
  match h.result with
  | .ok => h.state.follow (fsmRow f).next
  | .waitStop => h.state.follow (fsmRow f).next
  | .waitOk => .next (h.state.withPoller (h.state.poller.goto f.code))
  | .waitAbort => h.state.follow (fsmRow f).abort
  | .error => .next (h.state.takeError (fsmRow f).error.code)

/-- The driver on a handler that may have found no value to read. -/
def driveOrFault (f : FsmState) : Except Fault Handled → Host.Outcome State Fault Refusal
  | .ok h => drive f h
  | .error e => .fault e

/-- A handler that ends with `result OK`. -/
def Handled.ok (s : State) : Handled := { state := s, result := .ok, error := none }

/-- A handler that ends with `result ERROR`, for the reason `e`. -/
def Handled.failed (s : State) (e : BlockError) : Handled :=
  { state := s, result := .error, error := some e }

/-- A handler that ends with `result WAIT_ABORT` and no error: an exhausted index or cursor, or a
nonempty due list. -/
def Handled.abort (s : State) : Handled := { state := s, result := .waitAbort, error := none }

/-- A handler that ends with `result WAIT_OK`. -/
def Handled.waitOk (s : State) : Handled := { state := s, result := .waitOk, error := none }

end Sys2Proof.Machine
end

