-- ==== Sys2Proof/Machine/Handshake.lean ====
section
/-!
DEFINITION. The meanings of the poller states of initialisation, version check and board identification
(43_poller_fsm.md sections 2 to 5). Each meaning is its state's handler followed by the driver.
-/

namespace Sys2Proof.Machine

/-- FSM_INIT (43_poller_fsm.md R275): the receive path is not touched. -/
def execFsmInit (s : State) : Host.Outcome State Fault Refusal :=
  drive .init (.ok (s.withPoller (s.poller.clearSession s.cfg.maxPoints)))

/-- FSM_SEND_ITF_VER (43_poller_fsm.md R285): `retries` is neither counted nor checked. -/
def execFsmSendItfVer (s : State) : Host.Outcome State Fault Refusal :=
  drive .sendItfVer (.ok (s.send s.cfg.addrs.itfVersion))

/-- FSM_WAIT_ITF_VER_ANS (43_poller_fsm.md R277). -/
def execFsmWaitItfVerAns (s : State) : Host.Outcome State Fault Refusal :=
  drive .waitItfVerAns (waitAns s)

/-- The response in the receive buffer, as a `PROC_*` handler decodes it (41_codec.md R220). -/
def State.answer (s : State) (buf : Frame) : Except CodecError Response :=
  unpackResponse s.cfg.toProtocol s.pollerView buf

/-- A `PROC_*` handler: `judge` is run on the decoded receive buffer and on the state after decoding. -/
def processAnswer (s : State) (judge : Except CodecError Response → State → Handled) :
    Except Fault Handled :=
  match s.pollerFrame with
  | none => .error .bufferBounds
  | some buf => .ok (judge (s.answer buf) s.crcIdle)

/-- The judgement of PROC_ITF_VER (43_poller_fsm.md R287): a failed answer is `BadResponse`, another
version is `VersionMismatch` (60_exceptions.md R342). -/
def judgeItfVer (r : Except CodecError Response) (s : State) : Handled :=
  match r with
  | .error _ => .failed s .badResponse
  | .ok r =>
    if r.addr ≠ s.cfg.addrs.itfVersion then .failed s .badResponse
    else if r.status ≠ s.cfg.status.ok then .failed s .badResponse
    else match r.fields with
      | .version v =>
        if v ≠ s.cfg.itfVersionSupported then .failed s .versionMismatch else .ok s
      | _ => .failed s .badResponse

/-- FSM_PROC_ITF_VER (43_poller_fsm.md R287). -/
def execFsmProcItfVer (s : State) : Host.Outcome State Fault Refusal :=
  driveOrFault .procItfVer (processAnswer s judgeItfVer)

/-- FSM_SEND_BRD_ID (43_poller_fsm.md R288): no retry limit. -/
def execFsmSendBrdId (s : State) : Host.Outcome State Fault Refusal :=
  drive .sendBrdId (.ok (s.send s.cfg.addrs.brdId))

/-- FSM_WAIT_BRD_ID_ANS (43_poller_fsm.md R278). -/
def execFsmWaitBrdIdAns (s : State) : Host.Outcome State Fault Refusal :=
  drive .waitBrdIdAns (waitAns s)

/-- The judgement of PROC_BRD_ID (43_poller_fsm.md R289): the identity is copied before its point count
is judged. -/
def judgeBrdId (r : Except CodecError Response) (s : State) : Handled :=
  match r with
  | .error _ => .failed s .badResponse
  | .ok r =>
    if r.addr ≠ s.cfg.addrs.brdId then .failed s .badResponse
    else if r.status ≠ s.cfg.status.ok then .failed s .badResponse
    else match r.fields with
      | .board b =>
        if b.numOfPoints.toNat < 1 ∨ s.cfg.maxPoints < b.numOfPoints.toNat then
          .failed (s.withPoller (s.poller.setBoard b)) .invalidPointCount
        else .ok (s.withPoller (s.poller.setBoard b).clearCount)
      | _ => .failed s .badResponse

/-- FSM_PROC_BRD_ID (43_poller_fsm.md R289). -/
def execFsmProcBrdId (s : State) : Host.Outcome State Fault Refusal :=
  driveOrFault .procBrdId (processAnswer s judgeBrdId)

end Sys2Proof.Machine
end

