-- ==== Sys2Proof/Machine/Discovery.lean ====
section
/-!
DEFINITION. The meanings of the poller states of point-descriptor discovery (43_poller_fsm.md section 6).
-/

namespace Sys2Proof.Machine

/-- The counted transmission of SEND_PT_DESC and SEND_PT_VAL (43_poller_fsm.md R292, R306): the attempt
is counted, and refused as `RetryExhausted` once the count exceeds `MAX_RETRIES`. -/
def countedSend (s : State) (addr : Byte) : Handled :=
  let s := s.withPoller s.poller.countRetry
  if s.cfg.maxRetries < s.poller.retries.toNat then .failed s .retryExhausted else .ok (s.send addr)

/-- The handler of SEND_PT_DESC (43_poller_fsm.md R292): exhaustion is tested first. -/
def handleSendPtDesc (s : State) : Handled :=
  if s.numOfPoints ≤ s.poller.ptCount then .abort s.nextFree
  else countedSend s.nextFree (s.cfg.addrs.pointDescBase + s.poller.ptCount)

/-- FSM_SEND_PT_DESC (43_poller_fsm.md R292). -/
def execFsmSendPtDesc (s : State) : Host.Outcome State Fault Refusal :=
  drive .sendPtDesc (handleSendPtDesc s)

/-- FSM_WAIT_PT_DESC_ANS (43_poller_fsm.md R279). -/
def execFsmWaitPtDescAns (s : State) : Host.Outcome State Fault Refusal :=
  drive .waitPtDescAns (waitAns s)

/-- The judgement of PROC_PT_DESC (43_poller_fsm.md R295): anything but the descriptor asked for leaves
the index and the count of attempts as they are. -/
def judgePtDesc (r : Except CodecError Response) (s : State) : Handled :=
  match r with
  | .error _ => .ok s
  | .ok r =>
    if r.addr = s.cfg.addrs.pointDescBase + s.poller.ptCount ∧ r.status = s.cfg.status.ok then
      .ok (s.nextFree.withPoller (s.poller.addPoint (s.descIn r.fields)))
    else .ok s

/-- FSM_PROC_PT_DESC (43_poller_fsm.md R295). -/
def execFsmProcPtDesc (s : State) : Host.Outcome State Fault Refusal :=
  driveOrFault .procPtDesc (processAnswer s judgePtDesc)

end Sys2Proof.Machine
end

