-- ==== Sys2Proof/Machine/Scheduler.lean ====
section
/-!
DEFINITION. The acquisition scheduler (44_scheduler.md): the schedule built from the discovered
descriptors, and its tick.
-/

namespace Sys2Proof.Machine

/-- A point is scheduled when its rights include read and its sampling interval is not 0
(44_scheduler.md R320). -/
def isScheduled (b : AccessBits) (d : PointDesc) : Bool :=
  includesRead b d.accessRights && d.samplingTime != 0

/-- The schedule entry of point `i`, its countdown seeded from its interval (44_scheduler.md R320). -/
def schedEntryOf (i : Nat) (d : PointDesc) : SchedEntry :=
  { idx := BitVec.ofNat 8 i, interval := d.samplingTime, countdown := d.samplingTime }

/-- The schedule of descriptors `ds`, the first of which belongs to point `i`. -/
def scheduleFrom (b : AccessBits) (i : Nat) : List PointDesc → List SchedEntry
  | [] => []
  | d :: ds =>
    if isScheduled b d then schedEntryOf i d :: scheduleFrom b (i + 1) ds
    else scheduleFrom b (i + 1) ds

/-- `build_schedule(pt_table, pt_count)` (44_scheduler.md R320). -/
def State.buildSchedule (s : State) : List SchedEntry :=
  scheduleFrom s.cfg.access 0 ((List.range s.poller.ptCount.toNat).map s.descAt)

/-- The entry after one tick: its countdown is decremented, and reloaded when it reaches 0
(44_scheduler.md R322). -/
def SchedEntry.tick (e : SchedEntry) : SchedEntry :=
  if e.countdown - 1 = 0 then { e with countdown := e.interval }
  else { e with countdown := e.countdown - 1 }

/-- The entry is due on this tick: its countdown reaches 0 (44_scheduler.md R322). -/
def SchedEntry.isDue (e : SchedEntry) : Bool := e.countdown - 1 == 0

/-- The schedule after `schedule_tick` (44_scheduler.md R322). -/
def scheduleTick (sch : List SchedEntry) : List SchedEntry := sch.map SchedEntry.tick

/-- The due list `schedule_tick` returns (44_scheduler.md R322). -/
def scheduleDue (sch : List SchedEntry) : List (BitVec 8) :=
  (sch.filter SchedEntry.isDue).map SchedEntry.idx

end Sys2Proof.Machine
end

