-- ==== Sys2Proof/Machine/Acquisition.lean ====
section
/-!
DEFINITION. The meanings of the poller states of scheduling and point acquisition (43_poller_fsm.md
sections 7 and 8).
-/

namespace Sys2Proof.Machine

/-- The handler of BUILD_SCH (43_poller_fsm.md R300). -/
def handleBuildSch (s : State) : Handled :=
  .ok (s.nextFree.withPoller (s.poller.setSchedule s.buildSchedule))

/-- FSM_BUILD_SCH (43_poller_fsm.md R300). -/
def execFsmBuildSch (s : State) : Host.Outcome State Fault Refusal :=
  drive .buildSch (handleBuildSch s)

/-- The handler of RUN_SCH (43_poller_fsm.md R302). -/
def handleRunSch (s : State) : Handled :=
  let p := s.poller.setDue (scheduleTick s.poller.sched) (scheduleDue s.poller.sched)
  if p.due ≠ [] then .abort (s.withPoller p.startRound) else .waitOk (s.withPoller p)

/-- FSM_RUN_SCH (43_poller_fsm.md R302). -/
def execFsmRunSch (s : State) : Host.Outcome State Fault Refusal :=
  drive .runSch (handleRunSch s)

/-- The handler of SEND_PT_VAL (43_poller_fsm.md R306): exhaustion is tested first. -/
def handleSendPtVal (s : State) : Handled :=
  match s.poller.due[s.poller.cursor.toNat]? with
  | none => .abort s
  | some i => countedSend s (s.cfg.addrs.readPointDataBase + i)

/-- FSM_SEND_PT_VAL (43_poller_fsm.md R306). -/
def execFsmSendPtVal (s : State) : Host.Outcome State Fault Refusal :=
  drive .sendPtVal (handleSendPtVal s)

/-- FSM_WAIT_PT_VAL_ANS (43_poller_fsm.md R280). -/
def execFsmWaitPtValAns (s : State) : Host.Outcome State Fault Refusal :=
  drive .waitPtValAns (waitAns s)

/-- The judgement of PROC_PT_VAL while point `i` is being acquired (43_poller_fsm.md R311): the decoding
is tested before the address, and the address before the status. -/
def judgePtVal (i : BitVec 8) (r : Except CodecError Response) (s : State) : Handled :=
  match r with
  | .error _ => .ok s
  | .ok r =>
    if r.addr ≠ s.cfg.addrs.readPointDataBase + i then .ok (s.withPoller s.poller.advance)
    else if r.status ≠ s.cfg.status.ok then .ok s
    else .ok (s.withPoller
      ((s.poller.setValue i.toNat (s.valueIn r.fields)).clearRetries.advance))

/-- The handler of PROC_PT_VAL (43_poller_fsm.md R311). -/
def handleProcPtVal (s : State) : Except Fault Handled :=
  processAnswer s fun r s => judgePtVal s.dueIndex r s.nextFree

/-- FSM_PROC_PT_VAL (43_poller_fsm.md R311). -/
def execFsmProcPtVal (s : State) : Host.Outcome State Fault Refusal :=
  driveOrFault .procPtVal (handleProcPtVal s)

end Sys2Proof.Machine
end

