-- ==== Sys2Proof/Machine/Points.lean ====
section
/-!
DEFINITION. The meanings of the point requests and of the requests to unmapped addresses
(42_dispatcher.md sections 2 and 4): stage 1 (range), stage 2 (write), stage 3 (read), and the
descriptor part of stage 4.
-/

namespace Sys2Proof.Machine

/-- The answer of stage 1 (42_dispatcher.md R240). -/
def State.notImplemented (s : State) (addr : Byte) : State :=
  s.respond addr (.error .registerNotImplemented)

/-- Stage 1 for a request to an unmapped address (42_dispatcher.md R240). An operand that is a mapped
address is no decoded request (notes/assumptions/15.md). -/
def serveUnmapped (a : Byte) (s : State) : Host.Outcome State Fault Refusal :=
  if classify s.cfg.toProtocol a = .unmapped then .next (s.notImplemented a) else .refused .illFormedAddress

/-- UNMAPPED_LO_0B (42_dispatcher.md R240). -/
def execUnmappedLo0B (s : State) : Host.Outcome State Fault Refusal :=
  serveUnmapped UnmappedRow.addr0B s

/-- UNMAPPED_LO_0C (42_dispatcher.md R240). -/
def execUnmappedLo0C (lo : BitVec 2) (s : State) : Host.Outcome State Fault Refusal :=
  serveUnmapped (UnmappedRow.addr0C lo) s

/-- UNMAPPED_LO_10 (42_dispatcher.md R240). -/
def execUnmappedLo10 (lo : BitVec 4) (s : State) : Host.Outcome State Fault Refusal :=
  serveUnmapped (UnmappedRow.addr10 lo) s

/-- UNMAPPED_HI (42_dispatcher.md R240). -/
def execUnmappedHi (a : Byte) (s : State) : Host.Outcome State Fault Refusal := serveUnmapped a s

/-- The address of point `i` in the range that starts at `base` (30_encoding.md R130). -/
def pointAddr (base : Byte) (i : BitVec 8) : Byte := base + i

/-- Stage 1 for a point address, then `serve` on the point's database entry (42_dispatcher.md R240). An index
that is not below `MAX_POINTS` is no address of the range, so it is no decoded request
(notes/assumptions/15.md). -/
def servePoint (base : Byte) (i : BitVec 8) (s : State)
    (serve : DbEntry → Host.Outcome State Fault Refusal) : Host.Outcome State Fault Refusal :=
  if i.toNat < s.cfg.np then
    match s.responder.ptDb[i.toNat]? with
    | some e => serve e
    | none => .fault .pointMissing
  else if i.toNat < s.cfg.maxPoints then .next (s.notImplemented (pointAddr base i))
  else .refused .illFormedAddress

/-- POINT_DESC_(i+1) (42_dispatcher.md R254), whatever the point's access rights. -/
def execPointDesc (i : BitVec 8) (s : State) : Host.Outcome State Fault Refusal :=
  servePoint s.cfg.addrs.pointDescBase i s fun e =>
    .next (s.respond (pointAddr s.cfg.addrs.pointDescBase i) (.ok (.desc e.desc)))

/-- READ_POINT_DATA_(i+1) (42_dispatcher.md R253). -/
def execReadPointData (i : BitVec 8) (s : State) : Host.Outcome State Fault Refusal :=
  servePoint s.cfg.addrs.readPointDataBase i s fun e =>
    if includesRead s.cfg.access e.desc.accessRights then
      .next (s.respond (pointAddr s.cfg.addrs.readPointDataBase i) (.ok (.value e.value)))
    else .next (s.respond (pointAddr s.cfg.addrs.readPointDataBase i) (.error .writeOnlyViolation))

/-- The accepted write of stage 2 (42_dispatcher.md R250): the value is copied and the answer is an
empty OK response. -/
def State.acceptWrite (s : State) (i : BitVec 8) (x : Value) : State :=
  (s.withResponder (s.responder.setValue i.toNat x)).respond
    (pointAddr s.cfg.addrs.writePointDataBase i) (.ok .none)

/-- WRITE_POINT_DATA_(i+1) (42_dispatcher.md R250). An operand that is not a value of the point's
datatype is no decoded request (notes/assumptions/15.md). -/
def execWritePointData (i : BitVec 8) (x : Option Value) (s : State) :
    Host.Outcome State Fault Refusal :=
  servePoint s.cfg.addrs.writePointDataBase i s fun e =>
    if includesWrite s.cfg.access e.desc.accessRights then
      match x with
      | some v =>
        if e.desc.takes s.cfg.toProtocol v then .next (s.acceptWrite i v)
        else .refused .illFormedWrite
      | none => .refused .illFormedWrite
    else .next (s.respond (pointAddr s.cfg.addrs.writePointDataBase i) (.error .readOnlyViolation))

end Sys2Proof.Machine
end

