-- ==== Sys2Proof/Machine/Singletons.lean ====
section
/-!
DEFINITION. The meanings of the eleven singleton requests (42_dispatcher.md sections 3 and 5): seven
readable registers, answered by stage 4, and four that no stage serves, answered `ST_ERROR` by stage 5.
A singleton address is always valid, so stage 1 never stops one.
-/

namespace Sys2Proof.Machine

/-- ITF_VERSION (42_dispatcher.md R241). -/
def execItfVersion (s : State) : Host.Outcome State Fault Refusal :=
  .next (s.respond s.cfg.addrs.itfVersion (.ok (.version s.cfg.sensorItfVersion)))

/-- BRD_ID (42_dispatcher.md R242): the configured identity, its point count unjudged. -/
def execBrdId (s : State) : Host.Outcome State Fault Refusal :=
  .next (s.respond s.cfg.addrs.brdId (.ok (.board s.cfg.brd)))

/-- BRD_STATUS (42_dispatcher.md R243). -/
def execBrdStatus (s : State) : Host.Outcome State Fault Refusal :=
  .next (s.respond s.cfg.addrs.brdStatus (.ok (.brdStatus s.responder.brdStatus)))

/-- BRD_CMD (42_dispatcher.md R246): the command is not acted on. -/
def execBrdCmd (_cmd : Byte) (s : State) : Host.Outcome State Fault Refusal :=
  .next (s.respond s.cfg.addrs.brdCmd (.error .unknownCommand))

/-- BAT_STATUS (42_dispatcher.md R244), whatever the capability bits say. -/
def execBatStatus (s : State) : Host.Outcome State Fault Refusal :=
  .next (s.respond s.cfg.addrs.batStatus (.ok (.batStatus s.responder.batStatus)))

/-- BAT_CHARGE (42_dispatcher.md R245). -/
def execBatCharge (s : State) : Host.Outcome State Fault Refusal :=
  .next (s.respond s.cfg.addrs.batCharge (.ok (.batCharge s.responder.batCharge)))

/-- SVR_MAIN_ADDR (42_dispatcher.md R251). -/
def execSvrMainAddr (s : State) : Host.Outcome State Fault Refusal :=
  .next (s.respond s.cfg.addrs.svrMainAddr (.ok (.svrMain s.responder.svrMain)))

/-- SVR_SEC_ADDR (42_dispatcher.md R252). -/
def execSvrSecAddr (s : State) : Host.Outcome State Fault Refusal :=
  .next (s.respond s.cfg.addrs.svrSecAddr (.ok (.svrSec s.responder.svrSec)))

/-- DSP_WRITE (42_dispatcher.md R247): the message is not acted on. -/
def execDspWrite (_msg : List Byte) (s : State) : Host.Outcome State Fault Refusal :=
  .next (s.respond s.cfg.addrs.dspWrite (.error .unknownCommand))

/-- RADIO_STATUS (42_dispatcher.md R248): the value is not acted on. -/
def execRadioStatus (_v : Byte) (s : State) : Host.Outcome State Fault Refusal :=
  .next (s.respond s.cfg.addrs.radioStatus (.error .unknownCommand))

/-- RADIO_STRENGTH (42_dispatcher.md R249): the value is not acted on. -/
def execRadioStrength (_v : Byte) (s : State) : Host.Outcome State Fault Refusal :=
  .next (s.respond s.cfg.addrs.radioStrength (.error .unknownCommand))

end Sys2Proof.Machine
end

