-- ==== Sys2Proof/Machine/Dispatch.lean ====
section
/-!
DEFINITION. The dispatch of an instruction to its meaning: one arm per constructor of Instr.
-/

namespace Sys2Proof.Machine

def exec (i : Instr) (s : State) : Host.Outcome State Fault Refusal :=
  match i with
  | .itfVersion => Sys2Proof.Machine.execItfVersion s
  | .brdId => Sys2Proof.Machine.execBrdId s
  | .brdStatus => Sys2Proof.Machine.execBrdStatus s
  | .brdCmd cmd => Sys2Proof.Machine.execBrdCmd cmd s
  | .batStatus => Sys2Proof.Machine.execBatStatus s
  | .batCharge => Sys2Proof.Machine.execBatCharge s
  | .svrMainAddr => Sys2Proof.Machine.execSvrMainAddr s
  | .svrSecAddr => Sys2Proof.Machine.execSvrSecAddr s
  | .dspWrite msg => Sys2Proof.Machine.execDspWrite msg s
  | .radioStatus v => Sys2Proof.Machine.execRadioStatus v s
  | .radioStrength v => Sys2Proof.Machine.execRadioStrength v s
  | .unmappedLo0B => Sys2Proof.Machine.execUnmappedLo0B s
  | .unmappedLo0C lo => Sys2Proof.Machine.execUnmappedLo0C lo s
  | .unmappedLo10 lo => Sys2Proof.Machine.execUnmappedLo10 lo s
  | .unmappedHi a => Sys2Proof.Machine.execUnmappedHi a s
  | .pointDesc k => Sys2Proof.Machine.execPointDesc k s
  | .readPointData k => Sys2Proof.Machine.execReadPointData k s
  | .writePointData k x => Sys2Proof.Machine.execWritePointData k x s
  | .fsmInit => Sys2Proof.Machine.execFsmInit s
  | .fsmSendItfVer => Sys2Proof.Machine.execFsmSendItfVer s
  | .fsmWaitItfVerAns => Sys2Proof.Machine.execFsmWaitItfVerAns s
  | .fsmProcItfVer => Sys2Proof.Machine.execFsmProcItfVer s
  | .fsmSendBrdId => Sys2Proof.Machine.execFsmSendBrdId s
  | .fsmWaitBrdIdAns => Sys2Proof.Machine.execFsmWaitBrdIdAns s
  | .fsmProcBrdId => Sys2Proof.Machine.execFsmProcBrdId s
  | .fsmSendPtDesc => Sys2Proof.Machine.execFsmSendPtDesc s
  | .fsmWaitPtDescAns => Sys2Proof.Machine.execFsmWaitPtDescAns s
  | .fsmProcPtDesc => Sys2Proof.Machine.execFsmProcPtDesc s
  | .fsmBuildSch => Sys2Proof.Machine.execFsmBuildSch s
  | .fsmRunSch => Sys2Proof.Machine.execFsmRunSch s
  | .fsmSendPtVal => Sys2Proof.Machine.execFsmSendPtVal s
  | .fsmWaitPtValAns => Sys2Proof.Machine.execFsmWaitPtValAns s
  | .fsmProcPtVal => Sys2Proof.Machine.execFsmProcPtVal s

end Sys2Proof.Machine
end

