-- ==== Sys2Proof/Machine/Events.lean ====
section
/-!
DEFINITION. What each input event does (10_state.md R80 to R82, 42_dispatcher.md R230, R231, R234,
43_poller_fsm.md R270, 70_reset_and_hazards.md R380), on the state from which the event has been taken.
The two events that run an instruction fetch it here: `TICK` from the state register, and the sensor
side's `RX_IDLE` from the receive buffer.
-/

namespace Sys2Proof.Machine

/-- `RESET` (70_reset_and_hazards.md R380 to R383): every field of both units at its reset value. The
configuration, the events to come and the frames already on the link are not the block's to change, and
the CRC register is unspecified (notes/assumptions/9.md). -/
def onReset (s : State) : Host.Outcome State Fault Refusal :=
  .next { s.crcIdle with poller := Poller.reset s.cfg.maxPoints, responder := Responder.reset s.cfg }

/-- `TICK` (43_poller_fsm.md R270, R271): runs exactly the handler of the current state. -/
def onTick (s : State) : Host.Outcome State Fault Refusal :=
  match decodeState s.poller.state with
  | some i => exec i s
  | none => .fault .illegalState

/-- The mote side's `RX_BYTE(b)` (10_state.md R81): a byte for a full buffer is dropped. -/
def onPollerRxByte (b : Byte) (s : State) : Host.Outcome State Fault Refusal :=
  if s.poller.rxCount.toNat < s.cfg.rxBufSize then .next (s.withPoller (s.poller.push b))
  else .next s

/-- The mote side's `RX_IDLE` (10_state.md R82). -/
def onPollerRxIdle (s : State) : Host.Outcome State Fault Refusal :=
  if s.poller.rxCount ≠ 0 then .next (s.withPoller s.poller.flagFrame) else .next s

/-- The sensor side's `RX_BYTE(b)` (42_dispatcher.md R230). -/
def onResponderRxByte (b : Byte) (s : State) : Host.Outcome State Fault Refusal :=
  if s.responder.srxCount.toNat < s.cfg.rxBufSize then
    .next (s.withResponder (s.responder.push b))
  else .next s

/-- The state in which a decoded request runs: the receive buffer is consumed in every case
(42_dispatcher.md R231). -/
def State.consumed (s : State) : State := (s.withResponder s.responder.consume).crcIdle

/-- The sensor side's `RX_IDLE` (42_dispatcher.md R231): the buffer is decoded and consumed; an error
discards the frame without an answer, a request is handled and answered in this step. -/
def onResponderRxIdle (s : State) : Host.Outcome State Fault Refusal :=
  if s.responder.srxCount = 0 then .next s
  else match s.responderFrame with
    | none => .fault .bufferBounds
    | some buf =>
      match decodeRequest s.cfg.toProtocol s.responderView buf with
      | .error _ => .next s.consumed
      | .ok i => exec i s.consumed

/-- `APP_SET(field, v)` (42_dispatcher.md R234); a move outside 60_exceptions.md R372 is refused
(93_implementation_defined.md I32). -/
def onAppSet (f : AppField) (s : State) : Host.Outcome State Fault Refusal :=
  match f with
  | .brdStatus v => .next (s.withResponder { s.responder with brdStatus := v })
  | .batStatus v => .next (s.withResponder { s.responder with batStatus := v })
  | .batCharge v => .next (s.withResponder { s.responder with batCharge := v })
  | .svrMain a =>
    if a.length = s.cfg.fieldSizes.svrAddr then
      .next (s.withResponder { s.responder with svrMain := a })
    else .refused .appSetWrongLength
  | .svrSec a =>
    if a.length = s.cfg.fieldSizes.svrAddr then
      .next (s.withResponder { s.responder with svrSec := a })
    else .refused .appSetWrongLength
  | .pointValue i x =>
    if i.toNat < s.cfg.np then
      match s.responder.ptDb[i.toNat]? with
      | none => .fault .pointMissing
      | some e =>
        if e.desc.takes s.cfg.toProtocol x then
          .next (s.withResponder (s.responder.setValue i.toNat x))
        else .refused .appSetWrongDatatype
    else .refused .appSetNoSuchPoint

/-- One input event, taken as one atomic step (20_memory.md R91). -/
def onEvent (e : Event) (s : State) : Host.Outcome State Fault Refusal :=
  match e with
  | .reset => onReset s
  | .tick => onTick s
  | .pollerRxByte b => onPollerRxByte b s
  | .pollerRxIdle => onPollerRxIdle s
  | .responderRxByte b => onResponderRxByte b s
  | .responderRxIdle => onResponderRxIdle s
  | .appSet f => onAppSet f s

/-- One step: the next input event is taken; with none presented every field survives
(60_exceptions.md R368). A configuration outside the boot requirements is refused before anything runs
(93_implementation_defined.md section 4), and a state register that holds code 15 faults whatever the
event is (30_encoding.md R170). -/
def stepState (s : State) : Host.Outcome State Fault Refusal :=
  if s.cfg.ok then
    if s.poller.state = 15 then .fault .illegalState
    else match s.events with
      | [] => .next s
      | e :: es => onEvent e (s.withEvents es)
  else .refused .badConfiguration

/-- The buffer contents that hold frame `f` from offset 0. -/
def Memory.ofFrame (f : Frame) : Memory :=
  (f.zipIdx).foldl (fun m c => Memory.write m c.2 c.1) []

/-- Stores an encoded instruction where the next step fetches it, and presents the event that fetches
it: a request frame in the responder's receive buffer with the sensor side's `RX_IDLE`, a state code in
the state register with `TICK`. -/
def State.withEncoded (s : State) : Encoded → State
  | .frame f =>
    (s.withResponder { s.responder with
      srxBuf := Memory.ofFrame f, srxCount := BitVec.ofNat 16 f.length }).withEvents
        (.responderRxIdle :: s.events)
  | .stateCode c => (s.withPoller (s.poller.goto c)).withEvents (.tick :: s.events)

end Sys2Proof.Machine
end

