-- ==== Sys2Proof/Machine/Step.lean ====
section
/-!
DEFINITION. The step of the machine, and the placing of an opcode-table word where the next step fetches.
-/

namespace Sys2Proof.Machine

/-- One step of the block: exactly one input event (10_state.md R80). -/
def step (s : State) : Host.Outcome State Fault Refusal := stepState s

/-- `s` with the instruction of an opcode-table word placed so that the very next step runs it
(notes/assumptions/8.md). -/
def State.withFetchWord (s : State) (nbits w : Nat) : State :=
  s.withEncoded (tableEncoded s.cfg.toProtocol s.responderView nbits w)

end Sys2Proof.Machine
end

