-- ==== Sys2Proof/Machine/Sessions.lean ====
section
/-!
DEFINITION. Several sessions at once (10_state.md R78, 60_exceptions.md R366): each is a machine of its
own, with its own copy of every register. They share only the constant transition table and the one
reset input (70_reset_and_hazards.md R380).
-/

namespace Sys2Proof.Machine

/-- The sessions, each with its own state. -/
abbrev Sessions := List State

/-- `RESET` applies to every instance at once and takes effect in one step, before any other event
(70_reset_and_hazards.md R380): each session takes it before the events it has to come. -/
def Sessions.reset : Sessions → Host.Outcome Sessions Fault Refusal
  | [] => .next []
  | s :: ss =>
    match step (s.withEvents (.reset :: s.events)) with
    | .fault e => .fault e
    | .refused e => .refused e
    | .next t =>
      match Sessions.reset ss with
      | .next ts => .next (t :: ts)
      | .fault e => .fault e
      | .refused e => .refused e

/-- One step of the sessions, on the next event of session `k`. A `RESET` there is the block's one reset
input, which every session takes in this step; any other event moves session `k` alone. A session that
does not exist has no step. -/
def Sessions.stepAt (ss : Sessions) (k : Nat) : Option (Host.Outcome Sessions Fault Refusal) :=
  match ss[k]? with
  | none => none
  | some s =>
    match s.events with
    | .reset :: es => some (Sessions.reset (ss.set k (s.withEvents es)))
    | _ =>
      match step s with
      | .next t => some (.next (ss.set k t))
      | .fault e => some (.fault e)
      | .refused e => some (.refused e)

end Sys2Proof.Machine
end

