-- ==== Sys2Proof/Machine/Pipeline.lean ====
section
/-!
DEFINITION. The dispatcher as one ordered pipeline over a request's address, first matching stage wins
(42_dispatcher.md R232), written from that rule alone and independently of the per-instruction meanings.
-/

namespace Sys2Proof.Machine

/-- What a stage answers: a status, the response fields, and the point database afterwards. -/
structure Reply where
  status : Byte
  fields : RspFields
  ptDb : List DbEntry
  deriving DecidableEq, Repr

/-- Stage 4 and the fallback of stage 5 (42_dispatcher.md R232). DESIGN CHOICE (notes/assumptions/21.md): a
descriptor whose database entry is missing falls to stage 5; no rule answers it. -/
def replyCommand (c : Config) (r : Responder) (cls : AddrClass) : Reply :=
  match cls with
  | .singleton .itfVersion => ⟨c.status.ok, .version c.sensorItfVersion, r.ptDb⟩
  | .singleton .brdId => ⟨c.status.ok, .board c.brd, r.ptDb⟩
  | .singleton .brdStatus => ⟨c.status.ok, .brdStatus r.brdStatus, r.ptDb⟩
  | .singleton .batStatus => ⟨c.status.ok, .batStatus r.batStatus, r.ptDb⟩
  | .singleton .batCharge => ⟨c.status.ok, .batCharge r.batCharge, r.ptDb⟩
  | .singleton .svrMainAddr => ⟨c.status.ok, .svrMain r.svrMain, r.ptDb⟩
  | .singleton .svrSecAddr => ⟨c.status.ok, .svrSec r.svrSec, r.ptDb⟩
  | .pointDesc i =>
    match r.ptDb[i.toNat]? with
    | some e => ⟨c.status.ok, .desc e.desc, r.ptDb⟩
    | none => ⟨c.status.error, .none, r.ptDb⟩
  | _ => ⟨c.status.error, .none, r.ptDb⟩

/-- `handle(Request(a, x))` (42_dispatcher.md R232): range check, write handling, read handling, other
commands, fallback. `x` is the decoded value of a point write. DESIGN CHOICE (notes/assumptions/21.md): a
point below NP whose database entry is missing, and a write to a writable point without a value, fall to
stage 5 and answer `ST_ERROR`. No rule answers them (93_implementation_defined.md I30, 41_codec.md R214);
the machine itself stops there by name (notes/assumptions/10.md, 15.md). -/
def handle (c : Config) (r : Responder) (a : Byte) (x : Option Value) : Reply :=
  if validAddr c.toProtocol c.np a = false then ⟨c.status.registerNotImplemented, .none, r.ptDb⟩
  else match classify c.toProtocol a with
    | .writePoint i =>
      match r.ptDb[i.toNat]? with
      | some e =>
        if e.desc.accessRights &&& c.access.write ≠ 0 then
          match x with
          | some v => ⟨c.status.ok, .none, r.ptDb.set i.toNat { e with value := v }⟩
          | none => ⟨c.status.error, .none, r.ptDb⟩
        else ⟨c.status.readOnly, .none, r.ptDb⟩
      | none => ⟨c.status.error, .none, r.ptDb⟩
    | .readPoint i =>
      match r.ptDb[i.toNat]? with
      | some e =>
        if e.desc.accessRights &&& c.access.read ≠ 0 then ⟨c.status.ok, .value e.value, r.ptDb⟩
        else ⟨c.status.writeOnly, .none, r.ptDb⟩
      | none => ⟨c.status.error, .none, r.ptDb⟩
    | cls => replyCommand c r cls

end Sys2Proof.Machine
end

