-- ==== Sys2Proof/Safety.lean ====
section
/-!
DEFINITION. What counts as a good state: the invariant every step keeps, and the words the statements use
for what a step leaves unchanged. `Inv` collects the ranges and relations that 10_state.md gives for
each register.
-/

namespace Sys2Proof.Machine

/-- A poller's state code is one of the given states. -/
def Poller.stateIn (p : Poller) (fs : List FsmState) : Prop := ∃ f ∈ fs, p.state = f.code

/-- The wait states (43_poller_fsm.md section 3). -/
def waitStates : List FsmState := [.waitItfVerAns, .waitBrdIdAns, .waitPtDescAns, .waitPtValAns]

/-- The states from INIT's successor to the end of board identification. -/
def handshakeStates : List FsmState :=
  [.sendItfVer, .waitItfVerAns, .procItfVer, .sendBrdId, .waitBrdIdAns, .procBrdId]

/-- The states of discovery and acquisition, entered with an accepted board identity. -/
def sessionStates : List FsmState :=
  [.sendPtDesc, .waitPtDescAns, .procPtDesc, .buildSch, .runSch, .sendPtVal, .waitPtValAns, .procPtVal]

/-- A discovered entry has a name of its size and a legal datatype, and a value it holds has that datatype
(41_codec.md R223, 10_state.md R45). -/
def PointEntry.ok (p : Protocol) (e : PointEntry) : Prop :=
  e.desc.fits p.fieldSizes = true ∧ Datatype.ofCode p e.desc.dtype ≠ none ∧
    ∀ x, e.value = some x → e.desc.takes p x = true

/-- The point table has `MAX_POINTS` entries; entries `0 .. pt_count-1` are discovered and the others are
`none` (10_state.md R45). -/
def Poller.tableOk (c : Protocol) (p : Poller) : Prop :=
  p.ptTable.length = c.maxPoints ∧ p.ptCount.toNat ≤ c.maxPoints ∧
    ∀ k, k < c.maxPoints →
      if k < p.ptCount.toNat then ∃ e, p.ptTable[k]? = some (some e) ∧ e.ok c
      else p.ptTable[k]? = some none

/-- A schedule entry belongs to a discovered point that includes read, has that point's interval, and
counts within `1 .. interval` (10_state.md R46, 44_scheduler.md R321). -/
def SchedEntry.ok (c : Protocol) (p : Poller) (e : SchedEntry) : Prop :=
  e.idx.toNat < p.ptCount.toNat ∧ 1 ≤ e.countdown.toNat ∧ e.countdown.toNat ≤ e.interval.toNat ∧
    ∃ d, p.ptTable[e.idx.toNat]? = some (some d) ∧ isScheduled c.access d.desc = true ∧
      e.interval = d.desc.samplingTime

/-- The schedule is in ascending index order, at most `MAX_POINTS` long, and every entry is sound
(10_state.md R46). -/
def Poller.schedOk (c : Protocol) (p : Poller) : Prop :=
  p.sched.Pairwise (fun a b => a.idx.toNat < b.idx.toNat) ∧ p.sched.length ≤ c.maxPoints ∧
    ∀ e ∈ p.sched, e.ok c p

/-- The due list holds indices of the schedule in its order, the cursor stays in its range, and it does not
pass the end of the list when SEND_PT_VAL reads it (10_state.md R47, R48). -/
def Poller.dueOk (c : Protocol) (p : Poller) : Prop :=
  p.due.Sublist (p.sched.map SchedEntry.idx) ∧ p.cursor.toNat ≤ c.maxPoints ∧
    (p.stateIn [.sendPtVal] → p.cursor.toNat ≤ p.due.length)

/-- The counters stay in their reachable ranges (10_state.md R49, R51, R52). -/
def State.countersOk (s : State) : Prop :=
  let p := s.poller
  p.retries.toNat ≤ s.cfg.maxRetries + 1 ∧ p.tickCnt.toNat ≤ s.cfg.timeoutTicks + 1 ∧
    (p.timeoutTicks = 0 ∨ p.timeoutTicks.toNat = s.cfg.timeoutTicks) ∧
    (p.stateIn waitStates →
      p.timeoutTicks.toNat = s.cfg.timeoutTicks ∧ p.tickCnt.toNat ≤ s.cfg.timeoutTicks) ∧
    (p.state ≠ FsmState.init.code → p.retries.toNat ≤ s.cfg.maxRetries)

/-- What the state register says of the other registers: a board identity that is held has names of their
sizes; no point is known during the handshake; an identity with a legal point count is held afterwards;
the point or the due entry being asked for
exists (43_poller_fsm.md R289, R292, R306). -/
def Poller.phaseOk (c : Protocol) (p : Poller) : Prop :=
  p.state ≠ 15 ∧ (∀ b, p.brd = some b → b.fits c.fieldSizes = true) ∧
    (p.stateIn handshakeStates → p.ptCount = 0) ∧
    (p.stateIn sessionStates → ∃ b, p.brd = some b ∧ 1 ≤ b.numOfPoints.toNat ∧
      b.numOfPoints.toNat ≤ c.maxPoints ∧ p.ptCount.toNat ≤ b.numOfPoints.toNat ∧
      (p.stateIn [.waitPtDescAns, .procPtDesc] → p.ptCount.toNat < b.numOfPoints.toNat)) ∧
    (p.stateIn [.waitPtValAns, .procPtVal] → p.cursor.toNat < p.due.length)

/-- Both receive buffers are in canonical form and their counters within the buffer (10_state.md R53,
R63, 20_memory.md R90). -/
def State.buffersOk (s : State) : Prop :=
  Memory.wf s.poller.rxBuf ∧ Memory.wf s.responder.srxBuf ∧
    s.poller.rxCount.toNat ≤ s.cfg.rxBufSize ∧ s.responder.srxCount.toNat ≤ s.cfg.rxBufSize

/-- The responder's database has the configured descriptors, and every value its descriptor's datatype; the
server addresses have their size (10_state.md R61, R62). -/
def State.databaseOk (s : State) : Prop :=
  s.responder.ptDb.map DbEntry.desc = s.cfg.points.map DbEntry.desc ∧
    (∀ e ∈ s.responder.ptDb, e.ok s.cfg.toProtocol = true) ∧
    s.responder.svrMain.length = s.cfg.fieldSizes.svrAddr ∧
    s.responder.svrSec.length = s.cfg.fieldSizes.svrAddr

/-- The invariant of the block. -/
structure State.Inv (s : State) : Prop where
  config : s.cfg.ok = true
  buffers : s.buffersOk
  database : s.databaseOk
  phase : s.poller.phaseOk s.cfg.toProtocol
  table : s.poller.tableOk s.cfg.toProtocol
  sched : s.poller.schedOk s.cfg.toProtocol
  due : s.poller.dueOk s.cfg.toProtocol
  counters : s.countersOk

/-! ### Frames: what a step leaves unchanged -/

/-- `t` is `s` after the responder has transmitted frame `f`: nothing else differs but the CRC register,
whose value is not architectural between frames. -/
structure Answered (s t : State) (f : Frame) : Prop where
  cfg : t.cfg = s.cfg
  poller : t.poller = s.poller
  responder : t.responder = s.responder
  events : t.events = s.events
  pTx : t.pTx = s.pTx
  rTx : t.rTx = s.rTx ++ [f]

/-- `t` is `s` with the poller's registers `p` and the frames `fs` transmitted by the poller: nothing
else differs but the CRC register. -/
structure PollerStepped (s t : State) (p : Poller) (fs : List Frame) : Prop where
  cfg : t.cfg = s.cfg
  poller : t.poller = p
  responder : t.responder = s.responder
  events : t.events = s.events
  pTx : t.pTx = s.pTx ++ fs
  rTx : t.rTx = s.rTx

/-! ### Words of the statements -/

/-- `n` steps, stopping at the first fault or refusal. -/
def run : Nat → State → Host.Outcome State Fault Refusal
  | 0, s => .next s
  | n + 1, s =>
    match step s with
    | .next t => run n t
    | .fault e => .fault e
    | .refused e => .refused e

/-- A frame body followed by its CRC, low byte first (30_encoding.md R123). -/
def sealFrame (p : CrcParams) (body : Frame) : Frame := body ++ crcBytes p body

/-- The OK response frame of an address and a payload (30_encoding.md R120 to R123). -/
def okFrame (c : Config) (a : Byte) (payload : List Byte) : Frame :=
  sealFrame c.crc ([BitVec.ofNat 8 (3 + payload.length), a] ++ payload ++ [c.status.ok])

/-- The response frame of an address that carries a status and no payload (30_encoding.md R120 to R123). -/
def statusFrame (c : Config) (a st : Byte) : Frame := sealFrame c.crc [0x03, a, st]

/-- Bit `j` of byte `k` flipped. -/
def flipBit (d : Frame) (k j : Nat) : Frame := d.modify k fun b => b ^^^ (1#8 <<< j)

/-- The address of a request under an address map; a poller state has none. -/
def requestAddr (m : AddrMap) : Instr → Option Byte
  | .itfVersion => some m.itfVersion | .brdId => some m.brdId | .brdStatus => some m.brdStatus
  | .brdCmd _ => some m.brdCmd | .batStatus => some m.batStatus | .batCharge => some m.batCharge
  | .svrMainAddr => some m.svrMainAddr | .svrSecAddr => some m.svrSecAddr
  | .dspWrite _ => some m.dspWrite | .radioStatus _ => some m.radioStatus
  | .radioStrength _ => some m.radioStrength | .unmappedLo0B => some 0x0B
  | .unmappedLo0C lo => some (0x0C + lo.setWidth 8) | .unmappedLo10 lo => some (0x10 + lo.setWidth 8)
  | .unmappedHi a => some a | .pointDesc i => some (m.pointDescBase + i)
  | .readPointData i => some (m.readPointDataBase + i)
  | .writePointData i _ => some (m.writePointDataBase + i)
  | .fsmInit | .fsmSendItfVer | .fsmWaitItfVerAns | .fsmProcItfVer | .fsmSendBrdId
  | .fsmWaitBrdIdAns | .fsmProcBrdId | .fsmSendPtDesc | .fsmWaitPtDescAns | .fsmProcPtDesc
  | .fsmBuildSch | .fsmRunSch | .fsmSendPtVal | .fsmWaitPtValAns | .fsmProcPtVal => none

/-- The decoded value of a point write; no other request has one. -/
def requestValue : Instr → Option Value
  | .writePointData _ x => x
  | .itfVersion | .brdId | .brdStatus | .brdCmd _ | .batStatus | .batCharge | .svrMainAddr
  | .svrSecAddr | .dspWrite _ | .radioStatus _ | .radioStrength _ | .unmappedLo0B | .unmappedLo0C _
  | .unmappedLo10 _ | .unmappedHi _ | .pointDesc _ | .readPointData _ | .fsmInit | .fsmSendItfVer
  | .fsmWaitItfVerAns | .fsmProcItfVer | .fsmSendBrdId | .fsmWaitBrdIdAns | .fsmProcBrdId
  | .fsmSendPtDesc | .fsmWaitPtDescAns | .fsmProcPtDesc | .fsmBuildSch | .fsmRunSch | .fsmSendPtVal
  | .fsmWaitPtValAns | .fsmProcPtVal => none

/-- The fields are of the shape the address selects, with the lengths of their parameters, for a decoding
side that knows its points by `v` (30_encoding.md R140 to R155, 41_codec.md R222, R223). -/
def fieldsFit (p : Protocol) (v : PointView) (a : Byte) (f : RspFields) : Prop :=
  match classify p a with
  | .singleton .itfVersion => ∃ x, f = .version x
  | .singleton .brdId => ∃ b, f = .board b ∧ b.fits p.fieldSizes = true
  | .singleton .brdStatus => ∃ x, f = .brdStatus x
  | .singleton .brdCmd => f = .none
  | .singleton .batStatus => ∃ x, f = .batStatus x
  | .singleton .batCharge => ∃ x, f = .batCharge x
  | .singleton .svrMainAddr => ∃ x, f = .svrMain x ∧ x.length = p.fieldSizes.svrAddr
  | .singleton .svrSecAddr => ∃ x, f = .svrSec x ∧ x.length = p.fieldSizes.svrAddr
  | .singleton .dspWrite => f = .none
  | .singleton .radioStatus => f = .none
  | .singleton .radioStrength => f = .none
  | .pointDesc _ => ∃ d, f = .desc d ∧ d.fits p.fieldSizes = true ∧ Datatype.ofCode p d.dtype ≠ none
  | .readPoint i => ∃ x, f = .value x ∧ v.dtOf i.toNat = some x.dt ∧ x.fits p = true
  | .writePoint i => f = .none ∧ v.dtOf i.toNat ≠ none
  | .unmapped => False

/-- The events of the poller's side (10_state.md R80). -/
def Event.isPollers : Event → Bool
  | .tick | .pollerRxByte _ | .pollerRxIdle => true
  | .reset | .responderRxByte _ | .responderRxIdle | .appSet _ => false

/-- The events of the responder's side (10_state.md R80). -/
def Event.isResponders : Event → Bool
  | .responderRxByte _ | .responderRxIdle | .appSet _ => true
  | .reset | .tick | .pollerRxByte _ | .pollerRxIdle => false

/-- Ticks, and the bytes and silences of either side: the events of the tick source and of the link
(60_exceptions.md R372). -/
def Event.isTickOrLink : Event → Bool
  | .tick | .pollerRxByte _ | .pollerRxIdle | .responderRxByte _ | .responderRxIdle => true
  | .reset | .appSet _ => false

/-- The state changes a tick may make, by code, as the transition table and the staying of `WAIT_OK`
give them (43_poller_fsm.md R270, R272). -/
def tickEdges : List (BitVec 4 × BitVec 4) :=
  [(0, 1), (1, 2), (2, 2), (2, 3), (2, 1), (3, 4), (3, 0), (4, 5), (5, 5), (5, 6), (5, 4), (6, 7),
   (6, 0), (7, 8), (7, 10), (7, 0), (8, 8), (8, 9), (8, 7), (9, 7), (10, 11), (11, 11), (11, 12),
   (12, 13), (12, 11), (12, 0), (13, 13), (13, 14), (13, 12), (14, 12)]

/-- A `SEND_*` state's code with its wait state's. -/
def sendWaitPairs : List (BitVec 4 × BitVec 4) := [(1, 2), (4, 5), (7, 8), (12, 13)]

end Sys2Proof.Machine
end

