-- ==== Sys2Proof/Certificates/Slice0/Obligations.lean ====
section
/-!
DEFINITION. The statements for the provers.
-/

open Sys2Proof Sys2Proof.Machine

/-! ### CRC unit -/

/-- 40_crc.md R186: the four check values over the ASCII bytes "123456789". -/
def Obligations.CrcCheckValues : Prop :=
  let d : List Byte := [0x31, 0x32, 0x33, 0x34, 0x35, 0x36, 0x37, 0x38, 0x39]
  crc16 ⟨0x1021, 0x0000, false, false, 0x0000⟩ d = 0x31C3 ∧
    crc16 ⟨0x1021, 0xFFFF, false, false, 0x0000⟩ d = 0x29B1 ∧
    crc16 ⟨0x1021, 0x0000, true, true, 0x0000⟩ d = 0x2189 ∧
    crc16 ⟨0x8005, 0x0000, true, true, 0x0000⟩ d = 0xBB3D

/-- 40_crc.md R182: the table-driven form, a byte at a time through the 256-entry table of `crc16` steps,
returns `crc16(d)` for every `d` and every parameter set. -/
def Obligations.TableDrivenCrcConforms : Prop :=
  ∀ (p : CrcParams) (d : List Byte), crc16ByTable p d = crc16 p d

/-- 40_crc.md R187: flipping any one bit changes the CRC, for every parameter set whose polynomial has
bit 0 set; a configuration without that bit is not admitted. -/
def Obligations.CrcDetectsEverySingleBitFlip : Prop :=
  (∀ (p : CrcParams), p.poly.getLsbD 0 = true → ∀ (d : List Byte) (k j : Nat),
    k < d.length → j < 8 → crc16 p (flipBit d k j) ≠ crc16 p d) ∧
  (∀ c : Config, c.crc.poly.getLsbD 0 = false → c.ok = false)

/-! ### Codec and decoder -/

/-- 30_encoding.md R131: under the reference map the decoder selects by bits 7:5 and the singleton addresses;
under any parameters whose addresses do not overlap (notes/assumptions/7.md) it is the range test of the
parameters, with the same classes. -/
def Obligations.AddressDecoderIsTheRangeTest : Prop :=
  (∀ a : Byte, classify Protocol.reference a =
    if a.extractLsb' 5 3 = 0b001#3 then .pointDesc ((a.extractLsb' 0 5).setWidth 8)
    else if a.extractLsb' 5 3 = 0b010#3 then .readPoint ((a.extractLsb' 0 5).setWidth 8)
    else if a.extractLsb' 5 3 = 0b011#3 then .writePoint ((a.extractLsb' 0 5).setWidth 8)
    else if a.toNat ≤ 0x0A then .singleton (Singleton.all.getD a.toNat .itfVersion)
    else .unmapped) ∧
  (∀ (p : Protocol) (a : Byte), p.addrs.ok p.maxPoints = true →
    (∀ i, classify p a = .pointDesc i ↔ i.toNat < p.maxPoints ∧ a = p.addrs.pointDescBase + i) ∧
    (∀ i, classify p a = .readPoint i ↔ i.toNat < p.maxPoints ∧ a = p.addrs.readPointDataBase + i) ∧
    (∀ i, classify p a = .writePoint i ↔ i.toNat < p.maxPoints ∧ a = p.addrs.writePointDataBase + i) ∧
    (∀ r, classify p a = .singleton r ↔ a = r.addr p.addrs) ∧
    (classify p a = .unmapped ↔ a ∉ p.addrs.singles ∧ ∀ i : BitVec 8, i.toNat < p.maxPoints →
      ∀ b ∈ p.addrs.bases, a ≠ b + i))

/-- Decoding the encoding of a well-formed instruction gives it back, for every set of protocol parameters that
meets the conditions of Protocol.ok (notes/assumptions/7.md), every view of the points and every operand
(41_codec.md R226, 30_encoding.md R170). -/
def Obligations.DecodeOfEncodeIsIdentity : Prop :=
  ∀ (p : Protocol) (v : PointView) (i : Instr), p.ok = true → i.wf p v = true →
    decode p v (encode p i) = .ok i

/-- 41_codec.md R226, its three clauses: a packed request unpacks to itself, a packed OK response to its
fields, and a packed response of any other status to that status and no fields. -/
def Obligations.CodecRoundTrip : Prop :=
  ∀ (p : Protocol) (v : PointView), p.ok = true →
    (∀ (i : Instr) (f : Frame), i.wf p v = true → encode p i = .frame f →
      decodeRequest p v f = .ok i) ∧
    (∀ (a : Byte) (x : RspFields), fieldsFit p v a x →
      unpackResponse p v (packResponse p a p.status.ok x) = .ok ⟨a, p.status.ok, x⟩) ∧
    (∀ (a st : Byte) (x : RspFields), st ≠ p.status.ok →
      unpackResponse p v (packResponse p a st x) = .ok ⟨a, st, .none⟩)

/-- 41_codec.md R227: of a frame that unpacks, any flipped bit in bytes `[1, size + 2)` makes unpacking
raise `CrcMismatch`, on both sides, for every polynomial with bit 0 set. -/
def Obligations.FlippedBitRaisesCrcMismatch : Prop :=
  ∀ (p : Protocol) (v : PointView) (buf : Frame) (k j : Nat), p.crc.poly.getLsbD 0 = true →
    1 ≤ k → k < (buf.getD 0 0).toNat + 2 → j < 8 →
    ((∃ i, decodeRequest p v buf = .ok i) →
      ∃ rx, decodeRequest p v (flipBit buf k j) = .error (.crcMismatch rx)) ∧
    ((∃ r, unpackResponse p v buf = .ok r) →
      ∃ rx, unpackResponse p v (flipBit buf k j) = .error (.crcMismatch rx))

/-- 41_codec.md R211: bytes at offsets `size + 2` and above are not read, so a buffer decodes as its first
`size + 2` bytes do, on both sides, and two merged frames decode as the first alone. -/
def Obligations.TrailingBytesAreNotRead : Prop :=
  (∀ (p : Protocol) (v : PointView) (buf : Frame), 2 ≤ (buf.getD 0 0).toNat →
    (buf.getD 0 0).toNat + 2 ≤ buf.length →
    decodeRequest p v buf = decodeRequest p v (buf.take ((buf.getD 0 0).toNat + 2)) ∧
    unpackResponse p v buf = unpackResponse p v (buf.take ((buf.getD 0 0).toNat + 2))) ∧
  (∀ (p : Protocol) (v : PointView) (i : Instr) (f rest : Frame), p.ok = true →
    i.wf p v = true → encode p i = .frame f → decodeRequest p v (f ++ rest) = .ok i)

/-- 41_codec.md R210, R213: the checks of `unpack_request` in their order, each stopping the ones after it;
then a request to an invalid address decodes without its payload, a payload of the wrong length for a
valid address is `Malformed`, and one of the right length decodes to the instruction whose encoding is
the frame. -/
def Obligations.UnpackRequestChecksInOrder : Prop :=
  ∀ (p : Protocol) (v : PointView) (buf : Frame),
    let n := buf.length
    let size := (buf.getD 0 0).toNat
    let rx : BitVec 16 := buf.getD (size + 1) 0 ++ buf.getD size 0
    let addr := buf.getD 1 0
    (n < 3 → decodeRequest p v buf = .error (.shortFrame n)) ∧
    (3 ≤ n → size < 2 → decodeRequest p v buf = .error (.malformed size)) ∧
    (3 ≤ n → 2 ≤ size → n < size + 2 → decodeRequest p v buf = .error (.shortFrame n)) ∧
    (2 ≤ size → size + 2 ≤ n → crc16 p.crc (buf.take size) ≠ rx →
      decodeRequest p v buf = .error (.crcMismatch rx)) ∧
    (2 ≤ size → size + 2 ≤ n → crc16 p.crc (buf.take size) = rx →
      validAddr p v.count addr = false → ∃ i, decodeRequest p v buf = .ok i ∧
        requestAddr p.addrs i = some addr ∧ requestValue i = none) ∧
    (2 ≤ size → size + 2 ≤ n → crc16 p.crc (buf.take size) = rx →
      validAddr p v.count addr = true →
      ∀ dt, (∀ k, classify p addr = .writePoint k → v.dtOf k.toNat = some dt) →
        (size - 2 ≠ reqLen p (classify p addr) dt →
          decodeRequest p v buf = .error (.malformed (size - 2))) ∧
        (size - 2 = reqLen p (classify p addr) dt →
          ∃ i, decodeRequest p v buf = .ok i ∧ encode p i = .frame (buf.take (size + 2))))

/-- 41_codec.md R220: the checks of `unpack_response` in their order, each stopping the ones after it; then a
non-OK response decodes if it has no payload, an OK response to an unmapped address or of a point of
unknown datatype is `Malformed`, so is one whose payload has not the length of its shape, and a descriptor
whose type code is none of the ten; any other decodes to the fields whose packing is the frame. -/
def Obligations.UnpackResponseChecksInOrder : Prop :=
  ∀ (p : Protocol) (v : PointView) (buf : Frame),
    let n := buf.length
    let size := (buf.getD 0 0).toNat
    let rx : BitVec 16 := buf.getD (size + 1) 0 ++ buf.getD size 0
    let addr := buf.getD 1 0
    let status := buf.getD (size - 1) 0
    let cls := classify p addr
    let typeCode := buf.getD (2 + p.fieldSizes.pointName) 0
    (n < 3 → unpackResponse p v buf = .error (.shortFrame n)) ∧
    (3 ≤ n → size < 3 → unpackResponse p v buf = .error (.malformed size)) ∧
    (3 ≤ n → 3 ≤ size → n < size + 2 → unpackResponse p v buf = .error (.shortFrame n)) ∧
    (3 ≤ size → size + 2 ≤ n → crc16 p.crc (buf.take size) ≠ rx →
      unpackResponse p v buf = .error (.crcMismatch rx)) ∧
    (3 ≤ size → size + 2 ≤ n → crc16 p.crc (buf.take size) = rx →
      (status ≠ p.status.ok → 3 < size → unpackResponse p v buf = .error (.malformed (size - 3))) ∧
      (status ≠ p.status.ok → size = 3 → unpackResponse p v buf = .ok ⟨addr, status, .none⟩) ∧
      (status = p.status.ok →
        (cls = .unmapped → unpackResponse p v buf = .error (.malformed addr.toNat)) ∧
        (∀ i, cls = .readPoint i ∨ cls = .writePoint i → v.dtOf i.toNat = none →
          unpackResponse p v buf = .error (.malformed addr.toNat)) ∧
        ∀ dt, cls ≠ .unmapped →
          (∀ i, cls = .readPoint i ∨ cls = .writePoint i → v.dtOf i.toNat = some dt) →
          (size - 3 ≠ rspLen p cls dt →
            unpackResponse p v buf = .error (.malformed (size - 3))) ∧
          (size - 3 = rspLen p cls dt → (∃ i, cls = .pointDesc i) →
            Datatype.ofCode p typeCode = none →
            unpackResponse p v buf = .error (.malformed typeCode.toNat)) ∧
          (size - 3 = rspLen p cls dt →
            ((∃ i, cls = .pointDesc i) → Datatype.ofCode p typeCode ≠ none) →
            ∃ f, unpackResponse p v buf = .ok ⟨addr, p.status.ok, f⟩ ∧
              packResponse p addr p.status.ok f = buf.take (size + 2))))

/-- 41_codec.md R223: a descriptor whose type code is none of the ten, which are 0 to 9 in the reference
parameters, is `Malformed`; its unit, access and sampling bytes are not checked. -/
def Obligations.DescriptorTypeCodeIsChecked : Prop :=
  (∀ (p : Protocol) (v : PointView) (a : Byte) (i : BitVec 8) (d : PointDesc), p.ok = true →
    classify p a = .pointDesc i → d.fits p.fieldSizes = true →
    (Datatype.ofCode p d.dtype = none → unpackResponse p v (packResponse p a p.status.ok (.desc d)) =
      .error (.malformed d.dtype.toNat)) ∧
    (Datatype.ofCode p d.dtype ≠ none → unpackResponse p v (packResponse p a p.status.ok (.desc d)) =
      .ok ⟨a, p.status.ok, .desc d⟩)) ∧
  (∀ c : Byte, Datatype.ofCode Protocol.reference c = none ↔ 10 ≤ c.toNat)

/-- 41_codec.md R224: a non-OK response whose size exceeds 3 raises `Malformed`, for every payload and
status. -/
def Obligations.NonOkResponseWithPayloadIsMalformed : Prop :=
  ∀ (p : Protocol) (v : PointView) (a st : Byte) (pl : List Byte),
    st ≠ p.status.ok → pl ≠ [] → pl.length ≤ 252 →
    unpackResponse p v (sealFrame p.crc ([BitVec.ofNat 8 (3 + pl.length), a] ++ pl ++ [st])) =
      .error (.malformed pl.length)

/-- 41_codec.md R222: a non-OK response decodes for every address; an OK response to an unmapped address,
and an OK value response for an undiscovered point, are `Malformed`, whatever the payload; a descriptor
response decodes for every index, discovered or not. -/
def Obligations.ResponseShapeNeedsAKnownAddress : Prop :=
  ∀ (p : Protocol) (v : PointView) (a : Byte), p.ok = true →
    (∀ st : Byte, st ≠ p.status.ok →
      unpackResponse p v (sealFrame p.crc [0x03, a, st]) = .ok ⟨a, st, .none⟩) ∧
    (∀ pl : List Byte, pl.length ≤ 252 →
      (classify p a = .unmapped ∨ (∃ i : BitVec 8, v.dtOf i.toNat = none ∧
        (classify p a = .readPoint i ∨ classify p a = .writePoint i))) →
      unpackResponse p v (sealFrame p.crc
          ([BitVec.ofNat 8 (3 + pl.length), a] ++ pl ++ [p.status.ok])) =
        .error (.malformed a.toNat)) ∧
    (∀ (i : BitVec 8) (d : PointDesc), classify p a = .pointDesc i → d.fits p.fieldSizes = true →
      Datatype.ofCode p d.dtype ≠ none →
      unpackResponse p v (sealFrame p.crc ([BitVec.ofNat 8 (7 + p.fieldSizes.pointName), a] ++ d.name
        ++ [d.dtype, d.unit, d.accessRights, d.samplingTime, p.status.ok])) =
        .ok ⟨a, p.status.ok, .desc d⟩)

/-- 30_encoding.md R165: a signed value packs as its two's-complement pattern in little-endian order, in as
many bytes as its datatype has, and unpacks to the same number, for each of the four signed types at every
value of its range; N is 8, 16, 32 and 64 under the reference parameters. -/
def Obligations.SignedValuesMarshal : Prop :=
  (∀ (p : Protocol) (dt : Datatype) (v : Int), dt.isSigned = true → 1 ≤ dt.size p →
    -(2 ^ (8 * dt.size p - 1)) ≤ v → v < 2 ^ (8 * dt.size p - 1) →
    let x := Value.ofNum p dt v
    (fromLe (x.bytes p) : Int) = v % 2 ^ (8 * dt.size p) ∧ (x.bytes p).length = dt.size p ∧
      Value.ofBytes dt (x.bytes p) = x ∧ x.num p = some v) ∧
  ([Datatype.s8, .s16, .s32, .s64].map fun dt => 8 * dt.size Protocol.reference) = [8, 16, 32, 64]

/-- Frames and codes written out from the spec's vectors decode, under the reference address
map, to the instructions they stand for
(95_test_vectors.md sections 3.3 and 3.4, 30_encoding.md R170). -/
def Obligations.SpecVectorsDecode : Prop :=
  let p := Protocol.reference
  let v : PointView := ⟨3, [some .s16, some .u32, some .u8]⟩
  decode p v (.frame [0x02, 0x00, 0x62, 0x66]) = .ok .itfVersion ∧
    decode p v (.frame [0x03, 0x0A, 0xC8, 0xDF, 0xEE]) = .ok (.radioStrength 200) ∧
    decode p v (.frame [0x02, 0x22, 0x42, 0x62]) = .ok (.pointDesc 2) ∧
    decode p v (.frame [0x02, 0x5F, 0x78, 0xCD]) = .ok (.readPointData 31) ∧
    decode p v (.frame [0x06, 0x61, 0xD2, 0x04, 0x00, 0x00, 0xC7, 0xA7]) =
      .ok (.writePointData 1 (some ⟨.u32, 1234⟩)) ∧
    decode p v (.frame [0x03, 0x63, 0x05, 0x8C, 0x57]) = .ok (.writePointData 3 none) ∧
    decode p v (.frame [0x04, 0x0B, 0xAA, 0xBB, 0x05, 0xDE]) = .ok .unmappedLo0B ∧
    decode p v (.stateCode 0b1001#4) = .ok .fsmProcPtDesc ∧
    decode p v (.stateCode 0b1111#4) = .error .illegalStateCode

/-! ### Responder: what each request answers -/

/-- 42_dispatcher.md R241 to R245, R251, R252: the readable singletons answer `ST_OK` with the configured
or stored value, and change nothing else. -/
def Obligations.ReadableSingletonsAnswerTheirRegister : Prop :=
  ∀ s : State,
    (∃ t, exec .itfVersion s = .next t ∧
      Answered s t (okFrame s.cfg s.cfg.addrs.itfVersion [s.cfg.sensorItfVersion])) ∧
    (∃ t, exec .brdId s = .next t ∧
      Answered s t (okFrame s.cfg s.cfg.addrs.brdId (s.cfg.brd.manufacturer ++ s.cfg.brd.model
        ++ leBytes 4 s.cfg.brd.sensorId.toNat
        ++ [s.cfg.brd.hwRevision, s.cfg.brd.numOfPoints, s.cfg.brd.capabilities]))) ∧
    (∃ t, exec .brdStatus s = .next t ∧
      Answered s t (okFrame s.cfg s.cfg.addrs.brdStatus [s.responder.brdStatus])) ∧
    (∃ t, exec .batStatus s = .next t ∧
      Answered s t (okFrame s.cfg s.cfg.addrs.batStatus [s.responder.batStatus])) ∧
    (∃ t, exec .batCharge s = .next t ∧
      Answered s t (okFrame s.cfg s.cfg.addrs.batCharge [s.responder.batCharge])) ∧
    (∃ t, exec .svrMainAddr s = .next t ∧
      Answered s t (okFrame s.cfg s.cfg.addrs.svrMainAddr s.responder.svrMain)) ∧
    (∃ t, exec .svrSecAddr s = .next t ∧
      Answered s t (okFrame s.cfg s.cfg.addrs.svrSecAddr s.responder.svrSec))

/-- 42_dispatcher.md R246 to R249: the four singletons that no stage serves answer `ST_ERROR`, whatever
their operand, and change nothing else. -/
def Obligations.UnservedSingletonsAnswerError : Prop :=
  ∀ (s : State) (b : Byte) (msg : List Byte),
    (∃ t, exec (.brdCmd b) s = .next t ∧
      Answered s t (statusFrame s.cfg s.cfg.addrs.brdCmd s.cfg.status.error)) ∧
    (∃ t, exec (.dspWrite msg) s = .next t ∧
      Answered s t (statusFrame s.cfg s.cfg.addrs.dspWrite s.cfg.status.error)) ∧
    (∃ t, exec (.radioStatus b) s = .next t ∧
      Answered s t (statusFrame s.cfg s.cfg.addrs.radioStatus s.cfg.status.error)) ∧
    (∃ t, exec (.radioStrength b) s = .next t ∧
      Answered s t (statusFrame s.cfg s.cfg.addrs.radioStrength s.cfg.status.error))

/-- 42_dispatcher.md R240: a request to an unmapped address, or to a point index of its range at or above NP, answers
`ST_REGISTER_NOT_IMPLEMENTED` with the address echoed, and changes nothing else. Under the reference map
every address of the four unmapped rows is unmapped (AddressDecoderIsTheRangeTest). -/
def Obligations.InvalidAddressesAnswerNotImplemented : Prop :=
  ∀ s : State,
    let answered (t : State) (a : Byte) : Prop :=
      Answered s t (statusFrame s.cfg a s.cfg.status.registerNotImplemented)
    (classify s.cfg.toProtocol 0x0B = .unmapped → ∃ t, exec .unmappedLo0B s = .next t ∧
      answered t 0x0B) ∧
    (∀ lo : BitVec 2, classify s.cfg.toProtocol (0x0C + lo.setWidth 8) = .unmapped →
      ∃ t, exec (.unmappedLo0C lo) s = .next t ∧ answered t (0x0C + lo.setWidth 8)) ∧
    (∀ lo : BitVec 4, classify s.cfg.toProtocol (0x10 + lo.setWidth 8) = .unmapped →
      ∃ t, exec (.unmappedLo10 lo) s = .next t ∧ answered t (0x10 + lo.setWidth 8)) ∧
    (∀ a : Byte, classify s.cfg.toProtocol a = .unmapped →
      ∃ t, exec (.unmappedHi a) s = .next t ∧ answered t a) ∧
    (∀ i : BitVec 8, s.cfg.brd.numOfPoints.toNat ≤ i.toNat → i.toNat < s.cfg.maxPoints →
      (∃ t, exec (.pointDesc i) s = .next t ∧ answered t (s.cfg.addrs.pointDescBase + i)) ∧
      (∃ t, exec (.readPointData i) s = .next t ∧ answered t (s.cfg.addrs.readPointDataBase + i)) ∧
      (∀ x, ∃ t, exec (.writePointData i x) s = .next t ∧
        answered t (s.cfg.addrs.writePointDataBase + i)))

/-- 42_dispatcher.md R254: a descriptor request answers the descriptor, whatever the point's rights, and
changes nothing else. -/
def Obligations.PointDescAnswersTheDescriptor : Prop :=
  ∀ (s : State) (i : BitVec 8) (e : DbEntry), i.toNat < s.cfg.brd.numOfPoints.toNat →
    s.responder.ptDb[i.toNat]? = some e →
    ∃ t, exec (.pointDesc i) s = .next t ∧
      Answered s t (okFrame s.cfg (s.cfg.addrs.pointDescBase + i)
        (e.desc.name ++ [e.desc.dtype, e.desc.unit, e.desc.accessRights, e.desc.samplingTime]))

/-- 42_dispatcher.md R253: a read answers the stored value if the rights include read, else
`ST_WRITE_ONLY`; it never changes state. -/
def Obligations.ReadPointDataAnswersByAccessRights : Prop :=
  ∀ (s : State) (i : BitVec 8) (e : DbEntry), i.toNat < s.cfg.brd.numOfPoints.toNat →
    s.responder.ptDb[i.toNat]? = some e →
    (e.desc.accessRights &&& s.cfg.access.read ≠ 0 → ∃ t, exec (.readPointData i) s = .next t ∧
      Answered s t (okFrame s.cfg (s.cfg.addrs.readPointDataBase + i)
        (leBytes (e.value.dt.size s.cfg.toProtocol) e.value.raw))) ∧
    (e.desc.accessRights &&& s.cfg.access.read = 0 → ∃ t, exec (.readPointData i) s = .next t ∧
      Answered s t (statusFrame s.cfg (s.cfg.addrs.readPointDataBase + i) s.cfg.status.writeOnly))

/-- 42_dispatcher.md R250: a write of a value of the point's datatype replaces the stored value and
answers `ST_OK` if the rights include write; otherwise it answers `ST_READ_ONLY` and changes nothing. -/
def Obligations.WritePointDataWritesByAccessRights : Prop :=
  ∀ (s : State) (i : BitVec 8) (e : DbEntry) (x : Value),
    i.toNat < s.cfg.brd.numOfPoints.toNat → s.responder.ptDb[i.toNat]? = some e →
    Datatype.ofCode s.cfg.toProtocol e.desc.dtype = some x.dt → x.fits s.cfg.toProtocol = true →
    (e.desc.accessRights &&& s.cfg.access.write ≠ 0 →
      ∃ t, exec (.writePointData i (some x)) s = .next t ∧
        t.responder = { s.responder with
          ptDb := s.responder.ptDb.set i.toNat { desc := e.desc, value := x } } ∧
        t.rTx = s.rTx ++ [statusFrame s.cfg (s.cfg.addrs.writePointDataBase + i) s.cfg.status.ok] ∧
        t.cfg = s.cfg ∧ t.poller = s.poller ∧ t.events = s.events ∧ t.pTx = s.pTx) ∧
    (e.desc.accessRights &&& s.cfg.access.write = 0 →
      ∃ t, exec (.writePointData i (some x)) s = .next t ∧
        Answered s t (statusFrame s.cfg (s.cfg.addrs.writePointDataBase + i) s.cfg.status.readOnly))

/-- 42_dispatcher.md R256: no request changes the responder's registers, but a write that the rights
allow, which changes the value of its own point. -/
def Obligations.OnlyAnAcceptedWriteChangesTheResponder : Prop :=
  ∀ (i : Instr) (s t : State), requestAddr s.cfg.addrs i ≠ none → exec i s = .next t →
    t.responder = s.responder ∨
      ∃ k x e, i = .writePointData k (some x) ∧ k.toNat < s.cfg.brd.numOfPoints.toNat ∧
        s.responder.ptDb[k.toNat]? = some e ∧ e.desc.accessRights &&& s.cfg.access.write ≠ 0 ∧
        t.responder = { s.responder with
          ptDb := s.responder.ptDb.set k.toNat { desc := e.desc, value := x } }

/-- 42_dispatcher.md R233: every request that completes answers with exactly one frame, which carries the
request's address. -/
def Obligations.ResponsesEchoTheAddress : Prop :=
  ∀ (i : Instr) (s t : State) (a : Byte), s.cfg.ok = true → s.databaseOk →
    requestAddr s.cfg.addrs i = some a → exec i s = .next t →
    ∃ f, t.rTx = s.rTx ++ [f] ∧ f[1]? = some a ∧ 5 ≤ f.length ∧ f.length ≤ 257

/-- 42_dispatcher.md R232: on every well-formed request the meaning is the five-stage pipeline `handle`:
its status and fields make the response, and its database is the new one. -/
def Obligations.RequestMeaningsAreThePipeline : Prop :=
  ∀ (i : Instr) (s : State) (a : Byte), s.cfg.ok = true → s.databaseOk →
    i.wf s.cfg.toProtocol s.responderView = true → requestAddr s.cfg.addrs i = some a →
    ∃ t, exec i s = .next t ∧
      let r := handle s.cfg s.responder a (requestValue i)
      t.rTx = s.rTx ++ [packResponse s.cfg.toProtocol a r.status r.fields] ∧
      t.responder = { s.responder with ptDb := r.ptDb } ∧
      t.cfg = s.cfg ∧ t.poller = s.poller ∧ t.events = s.events ∧ t.pTx = s.pTx

/-- 20_memory.md R100: repeating a completed request gives the same response again and leaves the responder as
the first one did, so a retried write is idempotent. -/
def Obligations.RepeatedRequestIsIdempotent : Prop :=
  ∀ (i : Instr) (s t : State), requestAddr s.cfg.addrs i ≠ none → exec i s = .next t →
    ∃ u f, exec i t = .next u ∧ t.rTx = s.rTx ++ [f] ∧ u.rTx = t.rTx ++ [f] ∧
      u.responder = t.responder

/-! ### Poller: what each state does -/

/-- 43_poller_fsm.md R275: INIT resets the session registers, leaves the receive path, and goes to
SEND_ITF_VER. -/
def Obligations.InitClearsTheSession : Prop :=
  ∀ s : State, ∃ t, exec .fsmInit s = .next t ∧
    PollerStepped s t
      { state := 1, brd := none, ptCount := 0, ptTable := List.replicate s.cfg.maxPoints none, sched := [],
        due := [], cursor := 0, retries := 0, tickCnt := 0, timeoutTicks := 0,
        rxBuf := s.poller.rxBuf, rxCount := s.poller.rxCount,
        frameArrived := s.poller.frameArrived } []

/-- 43_poller_fsm.md R276 to R280: each wait state stops waiting when a frame is flagged, counts the tick
otherwise, and past the armed timeout stops with pending bytes or aborts without; nothing else changes.
A row is (state, its code, next, abort). -/
def Obligations.WaitStatesRunWaitAns : Prop :=
  ∀ row ∈ ([(.fsmWaitItfVerAns, 2, 3, 1), (.fsmWaitBrdIdAns, 5, 6, 4), (.fsmWaitPtDescAns, 8, 9, 7),
      (.fsmWaitPtValAns, 13, 14, 12)] : List (Instr × BitVec 4 × BitVec 4 × BitVec 4)),
    ∀ s : State,
      (s.poller.frameArrived = true → ∃ t, exec row.1 s = .next t ∧
        PollerStepped s t { s.poller with state := row.2.2.1 } []) ∧
      (s.poller.frameArrived = false → s.poller.tickCnt + 1 ≤ s.poller.timeoutTicks →
        ∃ t, exec row.1 s = .next t ∧ PollerStepped s t
          { s.poller with state := row.2.1, tickCnt := s.poller.tickCnt + 1 } []) ∧
      (s.poller.frameArrived = false → s.poller.timeoutTicks < s.poller.tickCnt + 1 →
        s.poller.rxCount ≠ 0 → ∃ t, exec row.1 s = .next t ∧ PollerStepped s t
          { s.poller with state := row.2.2.1, tickCnt := s.poller.tickCnt + 1 } []) ∧
      (s.poller.frameArrived = false → s.poller.timeoutTicks < s.poller.tickCnt + 1 →
        s.poller.rxCount = 0 → ∃ t, exec row.1 s = .next t ∧ PollerStepped s t
          { s.poller with state := row.2.2.2, tickCnt := s.poller.tickCnt + 1 } [])

/-- 43_poller_fsm.md R274, R285, R288: the two handshake requests are sent with the receive path emptied
and the timeout armed; `retries` is not touched. -/
def Obligations.HandshakeRequestsAreSent : Prop :=
  ∀ s : State,
    (∃ t, exec .fsmSendItfVer s = .next t ∧ PollerStepped s t
      { s.poller with state := 2, rxCount := 0, frameArrived := false, tickCnt := 0,
                      timeoutTicks := BitVec.ofNat 32 (max 1 (s.cfg.respTimeoutMs / s.cfg.tickMs)) }
      [sealFrame s.cfg.crc [0x02, s.cfg.addrs.itfVersion]]) ∧
    (∃ t, exec .fsmSendBrdId s = .next t ∧ PollerStepped s t
      { s.poller with state := 5, rxCount := 0, frameArrived := false, tickCnt := 0,
                      timeoutTicks := BitVec.ofNat 32 (max 1 (s.cfg.respTimeoutMs / s.cfg.tickMs)) }
      [sealFrame s.cfg.crc [0x02, s.cfg.addrs.brdId]])

/-- 43_poller_fsm.md R287: an OK version response with the supported version goes on to SEND_BRD_ID; any
other buffer resets the session. No other poller register changes. -/
def Obligations.ProcItfVerChecksTheVersion : Prop :=
  ∀ (s : State) (buf : Frame), s.pollerFrame = some buf →
    (unpackResponse s.cfg.toProtocol s.pollerView buf =
        .ok ⟨s.cfg.addrs.itfVersion, s.cfg.status.ok, .version s.cfg.itfVersionSupported⟩ →
      ∃ t, exec .fsmProcItfVer s = .next t ∧ PollerStepped s t { s.poller with state := 4 } []) ∧
    (unpackResponse s.cfg.toProtocol s.pollerView buf ≠
        .ok ⟨s.cfg.addrs.itfVersion, s.cfg.status.ok, .version s.cfg.itfVersionSupported⟩ →
      ∃ t, exec .fsmProcItfVer s = .next t ∧ PollerStepped s t { s.poller with state := 0 } [])

/-- 43_poller_fsm.md R289: an OK board identity is copied; with a point count in 1..MAX_POINTS, which is 32 in
the reference parameters, discovery starts at index 0, with another the session resets; any other buffer
resets the session without a copy. -/
def Obligations.ProcBrdIdChecksThePointCount : Prop :=
  ∀ (s : State) (buf : Frame), s.pollerFrame = some buf →
    (∀ b : BoardId, unpackResponse s.cfg.toProtocol s.pollerView buf =
        .ok ⟨s.cfg.addrs.brdId, s.cfg.status.ok, .board b⟩ →
      (1 ≤ b.numOfPoints.toNat → b.numOfPoints.toNat ≤ s.cfg.maxPoints →
        ∃ t, exec .fsmProcBrdId s = .next t ∧
          PollerStepped s t { s.poller with state := 7, brd := some b, ptCount := 0 } []) ∧
      (b.numOfPoints.toNat = 0 ∨ s.cfg.maxPoints < b.numOfPoints.toNat →
        ∃ t, exec .fsmProcBrdId s = .next t ∧
          PollerStepped s t { s.poller with state := 0, brd := some b } [])) ∧
    ((∀ b : BoardId, unpackResponse s.cfg.toProtocol s.pollerView buf ≠
        .ok ⟨s.cfg.addrs.brdId, s.cfg.status.ok, .board b⟩) →
      ∃ t, exec .fsmProcBrdId s = .next t ∧ PollerStepped s t { s.poller with state := 0 } [])

/-- 43_poller_fsm.md R292: an exhausted index goes to BUILD_SCH and counts nothing; an attempt beyond
MAX_RETRIES resets the session without transmitting; another attempt asks for descriptor `pt_count`. While
`brd` is none the number of points is a free value (the model's choice: notes/assumptions/20.md). -/
def Obligations.SendPtDescAsksForTheNextDescriptor : Prop :=
  ∀ (s : State) (n : Byte), (∀ b, s.poller.brd = some b → n = b.numOfPoints) →
    (s.poller.brd = none → n = Config.unknownNumOfPoints s.freeSeq) →
    (n ≤ s.poller.ptCount → ∃ t, exec .fsmSendPtDesc s = .next t ∧
      PollerStepped s t { s.poller with state := 10 } []) ∧
    (s.poller.ptCount < n → s.cfg.maxRetries < (s.poller.retries + 1).toNat →
      ∃ t, exec .fsmSendPtDesc s = .next t ∧
        PollerStepped s t { s.poller with state := 0, retries := s.poller.retries + 1 } []) ∧
    (s.poller.ptCount < n → (s.poller.retries + 1).toNat ≤ s.cfg.maxRetries →
      ∃ t, exec .fsmSendPtDesc s = .next t ∧ PollerStepped s t
        { s.poller with state := 8, retries := s.poller.retries + 1, rxCount := 0,
                        frameArrived := false, tickCnt := 0,
                        timeoutTicks := BitVec.ofNat 32 s.cfg.timeoutTicks }
        [sealFrame s.cfg.crc [0x02, s.cfg.addrs.pointDescBase + s.poller.ptCount]])

/-- 43_poller_fsm.md R295: the descriptor asked for is stored without a value, the index moves on and the
attempts are cleared; a decode error, another address or a status that is not OK changes nothing. All go to
SEND_PT_DESC. The descriptor of an OK answer for that address with another shape is a free value (the
model's choice: notes/assumptions/20.md); no index below MAX_POINTS has such an answer. -/
def Obligations.ProcPtDescStoresTheDescriptor : Prop :=
  ∀ (s : State) (buf : Frame), s.pollerFrame = some buf →
    (∀ d : PointDesc, unpackResponse s.cfg.toProtocol s.pollerView buf =
        .ok ⟨s.cfg.addrs.pointDescBase + s.poller.ptCount, s.cfg.status.ok, .desc d⟩ →
      ∃ t, exec .fsmProcPtDesc s = .next t ∧ PollerStepped s t
        { s.poller with
          state := 7, ptCount := s.poller.ptCount + 1, retries := 0,
          ptTable := s.poller.ptTable.set s.poller.ptCount.toNat (some ⟨d, none⟩) } [] ∧
        s.poller.ptCount.toNat < s.cfg.maxPoints) ∧
    (∀ f : RspFields, unpackResponse s.cfg.toProtocol s.pollerView buf =
        .ok ⟨s.cfg.addrs.pointDescBase + s.poller.ptCount, s.cfg.status.ok, f⟩ → (∀ d, f ≠ .desc d) →
      (s.cfg.toProtocol.ok = true → s.cfg.maxPoints ≤ s.poller.ptCount.toNat) ∧
      ∃ t, exec .fsmProcPtDesc s = .next t ∧ PollerStepped s t
        { s.poller with
          state := 7, ptCount := s.poller.ptCount + 1, retries := 0,
          ptTable := s.poller.ptTable.set s.poller.ptCount.toNat
            (some ⟨Config.unknownDesc s.freeSeq s.poller.ptCount.toNat, none⟩) } []) ∧
    ((∀ f : RspFields, unpackResponse s.cfg.toProtocol s.pollerView buf ≠
        .ok ⟨s.cfg.addrs.pointDescBase + s.poller.ptCount, s.cfg.status.ok, f⟩) →
      ∃ t, exec .fsmProcPtDesc s = .next t ∧ PollerStepped s t { s.poller with state := 7 } [])

/-- 43_poller_fsm.md R300 and 44_scheduler.md R320: the schedule is exactly the points below `pt_count` that
include read and have a nonzero interval, in index order, each counting from its interval; the round
registers are cleared. The descriptor of a point the poller holds none of is a free value (the model's
choice: notes/assumptions/20.md). -/
def Obligations.BuildSchSelectsReadableSampledPoints : Prop :=
  ∀ s : State, ∃ t, exec .fsmBuildSch s = .next t ∧
    PollerStepped s t
      { s.poller with
        state := 11, due := [], cursor := 0, retries := 0,
        sched := (List.range s.poller.ptCount.toNat).filterMap fun k =>
          let d : PointDesc := match s.poller.ptTable[k]? with
            | some (some e) => e.desc
            | _ => Config.unknownDesc s.freeSeq k
          if d.accessRights &&& s.cfg.access.read ≠ 0 ∧ d.samplingTime ≠ 0 then
            some (⟨BitVec.ofNat 8 k, d.samplingTime, d.samplingTime⟩ : SchedEntry)
          else none } []

/-- 43_poller_fsm.md R302 and 44_scheduler.md R322: each countdown is decremented and reloaded at 0; the
entries that reached 0 are the due list, in schedule order; a nonempty list starts a round. -/
def Obligations.RunSchCollectsTheDuePoints : Prop :=
  ∀ s : State,
    let due := s.poller.sched.filterMap fun e => if e.countdown = 1 then some e.idx else none
    let sched := s.poller.sched.map fun e =>
      if e.countdown = 1 then { e with countdown := e.interval }
      else { e with countdown := e.countdown - 1 }
    (due ≠ [] → ∃ t, exec .fsmRunSch s = .next t ∧ PollerStepped s t
      { s.poller with state := 12, due := due, sched := sched, cursor := 0, retries := 0 } []) ∧
    (due = [] → ∃ t, exec .fsmRunSch s = .next t ∧ PollerStepped s t
      { s.poller with state := 11, due := [], sched := sched } [])

/-- 43_poller_fsm.md R306: an exhausted cursor goes to RUN_SCH and counts nothing; an attempt beyond
MAX_RETRIES resets the session without transmitting; another attempt asks for point `due[cursor]`. -/
def Obligations.SendPtValAsksForTheDuePoint : Prop :=
  ∀ s : State,
    (s.poller.due.length ≤ s.poller.cursor.toNat → ∃ t, exec .fsmSendPtVal s = .next t ∧
      PollerStepped s t { s.poller with state := 11 } []) ∧
    (∀ i, s.poller.due[s.poller.cursor.toNat]? = some i →
      (s.cfg.maxRetries < (s.poller.retries + 1).toNat → ∃ t, exec .fsmSendPtVal s = .next t ∧
        PollerStepped s t { s.poller with state := 0, retries := s.poller.retries + 1 } []) ∧
      ((s.poller.retries + 1).toNat ≤ s.cfg.maxRetries → ∃ t, exec .fsmSendPtVal s = .next t ∧
        PollerStepped s t
          { s.poller with state := 13, retries := s.poller.retries + 1, rxCount := 0,
                          frameArrived := false, tickCnt := 0,
                          timeoutTicks := BitVec.ofNat 32 s.cfg.timeoutTicks }
          [sealFrame s.cfg.crc [0x02, s.cfg.addrs.readPointDataBase + i]]))

/-- 43_poller_fsm.md R311 and R318: an undecodable buffer and a non-OK answer change nothing; an answer
for another address only moves the cursor; the OK answer for point `i` stores its value in that point's
entry alone, clears the attempts and moves the cursor. All go to SEND_PT_VAL. Past the end of the due list
`i` is a free value, and so is the value of a matched OK response of another shape; the latter occurs only
where no point of the table is asked for, so that nothing is stored (the model's choice:
notes/assumptions/20.md). -/
def Obligations.ProcPtValStoresTheMatchedValue : Prop :=
  ∀ (s : State) (buf : Frame) (i : BitVec 8), s.pollerFrame = some buf →
    (∀ j, s.poller.due[s.poller.cursor.toNat]? = some j → i = j) →
    (s.poller.due[s.poller.cursor.toNat]? = none → i = Config.unknownDueIndex s.freeSeq) →
    (∀ e, unpackResponse s.cfg.toProtocol s.pollerView buf = .error e →
      ∃ t, exec .fsmProcPtVal s = .next t ∧ PollerStepped s t { s.poller with state := 12 } []) ∧
    (∀ r, unpackResponse s.cfg.toProtocol s.pollerView buf = .ok r →
      r.addr ≠ s.cfg.addrs.readPointDataBase + i →
      ∃ t, exec .fsmProcPtVal s = .next t ∧ PollerStepped s t
        { s.poller with state := 12, cursor := s.poller.cursor + 1 } []) ∧
    (∀ r, unpackResponse s.cfg.toProtocol s.pollerView buf = .ok r →
      r.addr = s.cfg.addrs.readPointDataBase + i → r.status ≠ s.cfg.status.ok →
      ∃ t, exec .fsmProcPtVal s = .next t ∧ PollerStepped s t { s.poller with state := 12 } []) ∧
    (∀ r, unpackResponse s.cfg.toProtocol s.pollerView buf = .ok r →
      r.addr = s.cfg.addrs.readPointDataBase + i → r.status = s.cfg.status.ok →
      s.cfg.toProtocol.ok = true → i.toNat < s.cfg.maxPoints →
      ∃ t x e, r.fields = .value x ∧ s.poller.ptTable[i.toNat]? = some (some e) ∧
        exec .fsmProcPtVal s = .next t ∧ PollerStepped s t
          { s.poller with
            state := 12, cursor := s.poller.cursor + 1, retries := 0,
            ptTable := s.poller.ptTable.set i.toNat (some ⟨e.desc, some x⟩) } []) ∧
    (∀ r, unpackResponse s.cfg.toProtocol s.pollerView buf = .ok r →
      r.addr = s.cfg.addrs.readPointDataBase + i → r.status = s.cfg.status.ok →
      s.cfg.maxPoints ≤ i.toNat → s.poller.ptTable.length = s.cfg.maxPoints →
      ∃ t, exec .fsmProcPtVal s = .next t ∧ PollerStepped s t
        { s.poller with state := 12, cursor := s.poller.cursor + 1, retries := 0 } [])

/-! ### Scheduler laws -/

/-- 44_scheduler.md R324: call N of `schedule_tick` after `build_schedule` returns exactly the indices
whose interval divides N, in ascending order. -/
def Obligations.DueListIsTheDivisors : Prop :=
  ∀ (s : State) (n : Nat), 1 ≤ n →
    let sch := s.buildSchedule
    scheduleDue (scheduleTick^[n - 1] sch) =
      (sch.filter fun e => decide (e.interval.toNat ∣ n)).map SchedEntry.idx ∧
    (scheduleDue (scheduleTick^[n - 1] sch)).Pairwise (fun a b => a.toNat < b.toNat)

/-- 44_scheduler.md R328: with an empty schedule the poller stays in RUN_SCH over every later tick, whatever
else happens on either side between the ticks, short of a `RESET`: nothing is due and nothing is ever
sent. The events of the tick source and of the link all complete, from every state with the invariant;
those of the poller's side from every state, and they leave the responder as it is. -/
def Obligations.EmptyScheduleIdlesForever : Prop :=
  ∀ (evs es : List Event) (s : State), s.cfg.ok = true → s.poller.state = 11 →
    s.poller.sched = [] → .reset ∉ evs → s.events = evs ++ es →
    (∀ n t, n ≤ evs.length → run n s = .next t →
      t.poller.state = 11 ∧ t.poller.sched = [] ∧ t.pTx = s.pTx ∧
        (.tick ∈ evs.take n → t.poller.due = [])) ∧
    (s.Inv → (∀ e ∈ evs, e.isTickOrLink = true) →
      ∃ t, run evs.length s = .next t ∧ t.events = es) ∧
    ((∀ e ∈ evs, e.isPollers = true) →
      ∃ t, run evs.length s = .next t ∧ t.responder = s.responder ∧ t.events = es)

/-! ### Timeouts and retries -/

/-- 43_poller_fsm.md R315: after a `SEND_*` tick that transmitted, with nothing received, the wait state
runs for T + 1 ticks, the last of which returns to the `SEND_*` state; T is TIMEOUT_TICKS. -/
def Obligations.UnansweredAttemptTakesTimeoutTicks : Prop :=
  ∀ (s s' : State) (es : List Event), ∀ sw ∈ sendWaitPairs, s.cfg.ok = true →
    s.poller.state = sw.1 → step s = .next s' → s'.poller.state = sw.2 →
    s.events = List.replicate (s.cfg.timeoutTicks + 2) .tick ++ es →
    (∀ n, 1 ≤ n → n ≤ s.cfg.timeoutTicks + 1 →
      ∃ t, run n s = .next t ∧ t.poller.state = sw.2 ∧ t.poller.tickCnt.toNat = n - 1) ∧
    ∃ t, run (s.cfg.timeoutTicks + 2) s = .next t ∧
      t.poller = { s'.poller with
        state := sw.1, tickCnt := BitVec.ofNat 32 (s.cfg.timeoutTicks + 1) } ∧
      t.pTx = s'.pTx ∧ t.responder = s.responder ∧ t.events = es

/-- 43_poller_fsm.md R315, R316: a descriptor request, or a value request, that is never answered is
transmitted MAX_RETRIES times, one every T + 2 ticks; the next `SEND_*` transmits nothing and resets the
session. -/
def Obligations.UnansweredRequestResetsTheSession : Prop :=
  ∀ (s : State) (es : List Event) (a : Byte), s.cfg.ok = true → s.poller.retries = 0 →
    ((s.poller.state = 7 ∧ a = s.cfg.addrs.pointDescBase + s.poller.ptCount ∧
        ∃ b, s.poller.brd = some b ∧ s.poller.ptCount < b.numOfPoints) ∨
      (s.poller.state = 12 ∧ ∃ i, s.poller.due[s.poller.cursor.toNat]? = some i ∧
        a = s.cfg.addrs.readPointDataBase + i)) →
    s.events = List.replicate (s.cfg.maxRetries * (s.cfg.timeoutTicks + 2) + 1) .tick ++ es →
    ∃ t, run (s.cfg.maxRetries * (s.cfg.timeoutTicks + 2) + 1) s = .next t ∧
      t.poller.state = 0 ∧ t.poller.retries.toNat = s.cfg.maxRetries + 1 ∧
      t.pTx = s.pTx ++ List.replicate s.cfg.maxRetries (sealFrame s.cfg.crc [0x02, a]) ∧
      t.responder = s.responder ∧ t.events = es

/-- 43_poller_fsm.md R317: every wait state leaves within TIMEOUT_TICKS + 1 ticks, whatever bytes and
silences either side receives between the ticks: of every such list of events that holds that many ticks,
some part from its start leads to another state. -/
def Obligations.WaitStatesAreBounded : Prop :=
  ∀ (s : State) (evs es : List Event), s.Inv → s.poller.stateIn waitStates →
    (∀ e ∈ evs, e.isTickOrLink = true) → evs.count .tick = s.cfg.timeoutTicks + 1 →
    s.events = evs ++ es →
    ∃ n t, n ≤ evs.length ∧ run n s = .next t ∧ t.poller.state ≠ s.poller.state ∧
      (evs.take n).count .tick ≤ s.cfg.timeoutTicks + 1

/-! ### Events and the step -/

/-- A `TICK` runs the handler of the current state, and no other (43_poller_fsm.md R270, R271). -/
def Obligations.TickRunsTheDecodedState : Prop :=
  ∀ (s : State) (es : List Event) (p : Protocol) (v : PointView) (i : Instr), s.cfg.ok = true →
    s.events = .tick :: es → decode p v (.stateCode s.poller.state) = .ok i →
    step s = exec i { s with events := es }

/-- The sensor side's `RX_IDLE` runs the request its buffer decodes to, on the state with the event taken
and the buffer consumed (42_dispatcher.md R231). -/
def Obligations.RxIdleRunsTheDecodedRequest : Prop :=
  ∀ (s : State) (es : List Event) (buf : Frame) (i : Instr), s.cfg.ok = true →
    s.poller.state ≠ 15 →
    s.events = .responderRxIdle :: es → s.responder.srxCount ≠ 0 → s.responderFrame = some buf →
    decode s.cfg.toProtocol s.responderView (.frame buf) = .ok i →
    ∃ s', step s = exec i s' ∧ s'.cfg = s.cfg ∧ s'.poller = s.poller ∧
      s'.responder = { s.responder with srxCount := 0 } ∧ s'.events = es ∧ s'.pTx = s.pTx ∧
      s'.rTx = s.rTx ∧ s'.freeSeq = s.freeSeq

/-- 60_exceptions.md R341 and 42_dispatcher.md R231: a buffer that fails to decode is consumed and
discarded without a response; silence with nothing received has no effect. -/
def Obligations.BadFramesAreDiscarded : Prop :=
  ∀ (s : State) (es : List Event), s.cfg.ok = true → s.poller.state ≠ 15 →
    s.events = .responderRxIdle :: es →
    (s.responder.srxCount = 0 → step s = .next { s with events := es }) ∧
    (∀ buf e, s.responder.srxCount ≠ 0 → s.responderFrame = some buf →
      decodeRequest s.cfg.toProtocol s.responderView buf = .error e →
      ∃ t, step s = .next t ∧ t.responder = { s.responder with srxCount := 0 } ∧ t.cfg = s.cfg ∧
        t.poller = s.poller ∧ t.events = es ∧ t.pTx = s.pTx ∧ t.rTx = s.rTx)

/-- 10_state.md R81, R82: on the mote side a received byte is appended to the buffer, or dropped when it
is full, and touches nothing else; silence flags a frame exactly when bytes are there. -/
def Obligations.PollerReceivesBytes : Prop :=
  ∀ (s : State) (es : List Event), s.cfg.ok = true → s.poller.state ≠ 15 →
    Memory.wf s.poller.rxBuf →
    (∀ b, s.events = .pollerRxByte b :: es →
      (s.poller.rxCount.toNat < s.cfg.rxBufSize → ∃ t m, step s = .next t ∧
        PollerStepped { s with events := es } t
          { s.poller with rxBuf := m, rxCount := s.poller.rxCount + 1 } [] ∧
        t.poller.rxCount.toNat = s.poller.rxCount.toNat + 1 ∧
        ∀ k, Memory.read m k =
          if k = s.poller.rxCount.toNat then b else Memory.read s.poller.rxBuf k) ∧
      (s.cfg.rxBufSize ≤ s.poller.rxCount.toNat → step s = .next { s with events := es })) ∧
    (s.events = .pollerRxIdle :: es →
      (s.poller.rxCount ≠ 0 → step s =
        .next { s with events := es, poller := { s.poller with frameArrived := true } }) ∧
      (s.poller.rxCount = 0 → step s = .next { s with events := es }))

/-- 42_dispatcher.md R230: on the sensor side a received byte is appended to the buffer, or dropped when
it is full, and touches nothing else. -/
def Obligations.ResponderReceivesBytes : Prop :=
  ∀ (s : State) (es : List Event) (b : Byte), s.cfg.ok = true → s.poller.state ≠ 15 →
    Memory.wf s.responder.srxBuf →
    s.events = .responderRxByte b :: es →
    (s.responder.srxCount.toNat < s.cfg.rxBufSize → ∃ m,
      step s = .next { s with
        events := es
        responder := { s.responder with srxBuf := m, srxCount := s.responder.srxCount + 1 } } ∧
      ∀ k, Memory.read m k =
        if k = s.responder.srxCount.toNat then b else Memory.read s.responder.srxBuf k) ∧
    (s.cfg.rxBufSize ≤ s.responder.srxCount.toNat → step s = .next { s with events := es })

/-- 42_dispatcher.md R234: `APP_SET` writes one board-state register, or the value of one point for an
index below NP and a value of the point's datatype; it writes nothing else. A value of another datatype or
width, or for another index, is refused (93_implementation_defined.md I32; notes/assumptions/14.md). -/
def Obligations.AppSetWritesOneField : Prop :=
  ∀ (s : State) (es : List Event) (f : AppField), s.cfg.ok = true → s.poller.state ≠ 15 →
    s.databaseOk →
    s.events = .appSet f :: es →
    (∀ v, f = .brdStatus v → step s = .next { s with
      events := es, responder := { s.responder with brdStatus := v } }) ∧
    (∀ v, f = .batStatus v → step s = .next { s with
      events := es, responder := { s.responder with batStatus := v } }) ∧
    (∀ v, f = .batCharge v → step s = .next { s with
      events := es, responder := { s.responder with batCharge := v } }) ∧
    (∀ a, f = .svrMain a →
      (a.length = s.cfg.fieldSizes.svrAddr → step s = .next { s with
        events := es, responder := { s.responder with svrMain := a } }) ∧
      (a.length ≠ s.cfg.fieldSizes.svrAddr → step s = .refused .appSetWrongLength)) ∧
    (∀ a, f = .svrSec a →
      (a.length = s.cfg.fieldSizes.svrAddr → step s = .next { s with
        events := es, responder := { s.responder with svrSec := a } }) ∧
      (a.length ≠ s.cfg.fieldSizes.svrAddr → step s = .refused .appSetWrongLength)) ∧
    (∀ i x e, f = .pointValue i x → s.responder.ptDb[i.toNat]? = some e →
      (Datatype.ofCode s.cfg.toProtocol e.desc.dtype = some x.dt → x.fits s.cfg.toProtocol = true →
        step s = .next { s with
        events := es
        responder := { s.responder with
          ptDb := s.responder.ptDb.set i.toNat { desc := e.desc, value := x } } }) ∧
      (Datatype.ofCode s.cfg.toProtocol e.desc.dtype ≠ some x.dt ∨ x.fits s.cfg.toProtocol = false →
        step s = .refused .appSetWrongDatatype)) ∧
    (∀ i x, f = .pointValue i x → s.responder.ptDb[i.toNat]? = none →
      step s = .refused .appSetNoSuchPoint)

/-- 70_reset_and_hazards.md R381, R382: what `RESET` leaves in the registers whose reset value the spec
gives, from every state that steps at all (30_encoding.md R170). That the events to come and the recorded frames
(`events`, `pTx`, `rTx`) stay is the model's choice (notes/assumptions/9.md). -/
def Obligations.ResetEventLeaves : Prop :=
  ∀ (s : State) (es : List Event), s.cfg.ok = true → s.poller.state ≠ 15 →
    s.events = .reset :: es →
    ∃ t, step s = .next t ∧ t.poller.state = 0 ∧ t.poller.brd = none ∧ t.poller.ptCount = 0 ∧
      t.poller.ptTable = List.replicate s.cfg.maxPoints none ∧ t.poller.sched = [] ∧ t.poller.due = [] ∧
      t.poller.cursor = 0 ∧ t.poller.retries = 0 ∧ t.poller.tickCnt = 0 ∧
      t.poller.timeoutTicks = 0 ∧ t.poller.rxCount = 0 ∧ t.poller.frameArrived = false ∧
      t.responder.srxCount = 0 ∧ t.cfg = s.cfg ∧ t.responder.brdStatus = s.cfg.brdStatus ∧
      t.responder.batStatus = s.cfg.batStatus ∧ t.responder.batCharge = s.cfg.batCharge ∧
      t.responder.svrMain = s.cfg.svrMain ∧ t.responder.svrSec = s.cfg.svrSec ∧
      t.responder.ptDb = s.cfg.points ∧ t.events = es ∧ t.pTx = s.pTx ∧ t.rTx = s.rTx

/-- 30_encoding.md R170: a machine that finds code 15 in the state register faults and does not step,
whatever event it is given and when it is given none. -/
def Obligations.StateCode15Faults : Prop :=
  ∀ s : State, s.cfg.ok = true → s.poller.state = 15 → step s = .fault .illegalState

/-! ### Whole-machine rules -/

/-- 10_state.md R41 and 43_poller_fsm.md R270 to R272: a tick changes the state register only along the
transition table; no other event but `RESET` writes it. -/
def Obligations.StateFollowsTheTransitionTable : Prop :=
  ∀ (s t : State) (e : Event) (es : List Event), s.events = e :: es → step s = .next t →
    (e = .tick → (s.poller.state, t.poller.state) ∈ tickEdges) ∧
    (e ≠ .tick → e ≠ .reset → t.poller.state = s.poller.state)

/-- 70_reset_and_hazards.md R390 and 42_dispatcher.md R231: the poller transmits only on a tick of a
`SEND_*` state, and then goes to its wait state; the responder transmits only on its `RX_IDLE`; a step
transmits at most one frame. -/
def Obligations.TransmissionDiscipline : Prop :=
  ∀ (s t : State) (e : Event) (es : List Event), s.events = e :: es → step s = .next t →
    (t.pTx = s.pTx ∨ (∃ f, t.pTx = s.pTx ++ [f] ∧ e = .tick ∧ t.rTx = s.rTx ∧
      (s.poller.state, t.poller.state) ∈ sendWaitPairs)) ∧
    (t.rTx = s.rTx ∨ (∃ f, t.rTx = s.rTx ++ [f] ∧ e = .responderRxIdle ∧ t.pTx = s.pTx))

/-- 30_encoding.md R120 to R123: every frame a unit transmits has its length in its size byte and a correct
CRC, so it passes the receiver's checks whole; a request has 4 bytes and a response 5 to 257. -/
def Obligations.TransmittedFramesPassTheChecks : Prop :=
  ∀ (s t : State), s.databaseOk → step s = .next t →
    (∀ f, t.pTx = s.pTx ++ [f] → f.length = 4 ∧ checkFrame s.cfg.crc 2 f = .ok (f.take 2)) ∧
    (∀ f, t.rTx = s.rTx ++ [f] → 5 ≤ f.length ∧ f.length ≤ 257 ∧
      checkFrame s.cfg.crc 3 f = .ok (f.take (f.length - 2)))

/-- 10_state.md R60, R62: no step changes the configuration, and none but `RESET` the descriptors of the
database. -/
def Obligations.ConfigurationIsConstant : Prop :=
  ∀ s t : State, step s = .next t → t.cfg = s.cfg ∧
    (s.databaseOk → t.responder.ptDb.map DbEntry.desc = s.responder.ptDb.map DbEntry.desc)

/-- 60_exceptions.md R366: the two units share no state. An event of the poller's side changes nothing of
the responder, and does the same to the poller whatever the responder and the link hold; and the same
with the sides exchanged, but for state code 15, which stops the machine (30_encoding.md R170). The free
values of the poller's open reads are the same in both runs, and no event of the responder's side draws
one (notes/assumptions/20.md). -/
def Obligations.UnitsShareNoState : Prop :=
  ∀ (s1 s2 t1 : State) (e : Event) (es1 es2 : List Event), s1.cfg = s2.cfg →
    s1.events = e :: es1 → s2.events = e :: es2 → step s1 = .next t1 →
    (e.isPollers = true → s1.poller = s2.poller → s1.freeSeq = s2.freeSeq →
      ∃ t2 fs, step s2 = .next t2 ∧ t1.poller = t2.poller ∧ t1.freeSeq = t2.freeSeq ∧ t1.responder = s1.responder ∧
        t2.responder = s2.responder ∧ t1.pTx = s1.pTx ++ fs ∧ t2.pTx = s2.pTx ++ fs ∧
        t1.rTx = s1.rTx ∧ t2.rTx = s2.rTx) ∧
    (e.isResponders = true → s1.responder = s2.responder → s2.poller.state ≠ 15 →
      ∃ t2 fs, step s2 = .next t2 ∧ t1.responder = t2.responder ∧ t1.poller = s1.poller ∧
        t2.poller = s2.poller ∧ t1.freeSeq = s1.freeSeq ∧ t2.freeSeq = s2.freeSeq ∧ t1.rTx = s1.rTx ++ fs ∧ t2.rTx = s2.rTx ++ fs ∧
        t1.pTx = s1.pTx ∧ t2.pTx = s2.pTx)

/-- 10_state.md R78: a step of one session on any event but the one `RESET` of all leaves every other session
as it was (the model's form of several sessions: notes/assumptions/1.md). -/
def Obligations.SessionsAreIndependent : Prop :=
  ∀ (ss ts : Sessions) (s : State) (k j : Nat), ss[k]? = some s → s.events.head? ≠ some .reset →
    ss.stepAt k = some (.next ts) →
    ∃ t, step s = .next t ∧ ts[k]? = some t ∧ ts.length = ss.length ∧ (j ≠ k → ts[j]? = ss[j]?)

/-- 70_reset_and_hazards.md R380: `RESET` applies to every poller and responder instance at once and takes
effect in one step, before any other event; after it every poller's state is `INIT`. Which session's event
list holds the `RESET`, that the events the sessions have to come stay, and that both receive buffers are
left with nothing written, so that every offset reads 0x00, is the model's choice
(notes/assumptions/1.md, 9.md, 6.md). -/
def Obligations.ResetReachesEverySession : Prop :=
  ∀ (ss : Sessions) (s : State) (k : Nat) (es : List Event), ss[k]? = some s →
    s.events = .reset :: es → (∀ u ∈ ss, u.cfg.ok = true ∧ u.poller.state ≠ 15) →
    ∃ ts, ss.stepAt k = some (.next ts) ∧ ts.length = ss.length ∧
      ∀ (j : Nat) (u : State), ss[j]? = some u → ∃ t, ts[j]? = some t ∧ t.cfg = u.cfg ∧
        t.poller.state = 0 ∧ t.poller = Poller.reset u.cfg.maxPoints ∧ t.responder = Responder.reset u.cfg ∧
        t.events = (if j = k then es else u.events) ∧ t.pTx = u.pTx ∧ t.rTx = u.rTx

/-- The invariant holds after reset, for every configuration that meets the boot requirements; the reference
configuration of State.reset (notes/assumptions/4.md) is one of them. -/
def Obligations.ResetHasTheInvariant : Prop :=
  (∀ c : Config, c.ok = true → (State.boot c).Inv) ∧ State.reset.Inv

/-- From every state with the invariant, a step leads to a state with the invariant: each register stays in
the range and the relations 10_state.md gives it (R41 to R54, R62, R63), and the buffers stay canonical. -/
def Obligations.StepKeepsTheInvariant : Prop :=
  ∀ s t : State, s.Inv → step s = .next t → t.Inv

/-- From every state with the invariant no step faults, and every step completes but an `APP_SET` outside
60_exceptions.md R372, which is refused: of a point value for an index at or above NP, or of another
datatype or width than the point's, or of a server address of another length (notes/assumptions/14.md). -/
def Obligations.InvariantStatesNeverFault : Prop :=
  ∀ s : State, s.Inv →
    (∃ t, step s = .next t) ∨
      (∃ i x es, s.events = .appSet (.pointValue i x) :: es ∧
        ((step s = .refused .appSetNoSuchPoint ∧ s.cfg.brd.numOfPoints.toNat ≤ i.toNat) ∨
          (step s = .refused .appSetWrongDatatype ∧ ∃ e, s.responder.ptDb[i.toNat]? = some e ∧
            (Datatype.ofCode s.cfg.toProtocol e.desc.dtype ≠ some x.dt ∨
              x.fits s.cfg.toProtocol = false)))) ∨
      (∃ a es, (s.events = .appSet (.svrMain a) :: es ∨ s.events = .appSet (.svrSec a) :: es) ∧
        step s = .refused .appSetWrongLength ∧ a.length ≠ s.cfg.fieldSizes.svrAddr)

/-- An operand that no decoder produces is refused by name (notes/assumptions/15.md): a request of an
unmapped row with a mapped address, a point index that is not below `MAX_POINTS`, and a write, to a point
whose rights allow it, of no value or of one that is not of the point's datatype and width. -/
def Obligations.IllFormedRequestsAreRefused : Prop :=
  ∀ s : State, s.cfg.ok = true →
    (classify s.cfg.toProtocol 0x0B ≠ .unmapped → exec .unmappedLo0B s = .refused .illFormedAddress) ∧
    (∀ lo : BitVec 2, classify s.cfg.toProtocol (0x0C + lo.setWidth 8) ≠ .unmapped →
      exec (.unmappedLo0C lo) s = .refused .illFormedAddress) ∧
    (∀ lo : BitVec 4, classify s.cfg.toProtocol (0x10 + lo.setWidth 8) ≠ .unmapped →
      exec (.unmappedLo10 lo) s = .refused .illFormedAddress) ∧
    (∀ a : Byte, classify s.cfg.toProtocol a ≠ .unmapped →
      exec (.unmappedHi a) s = .refused .illFormedAddress) ∧
    (∀ i : BitVec 8, s.cfg.maxPoints ≤ i.toNat →
      exec (.pointDesc i) s = .refused .illFormedAddress ∧
      exec (.readPointData i) s = .refused .illFormedAddress ∧
      ∀ x, exec (.writePointData i x) s = .refused .illFormedAddress) ∧
    (∀ (i : BitVec 8) (e : DbEntry) (x : Option Value), i.toNat < s.cfg.brd.numOfPoints.toNat →
      s.responder.ptDb[i.toNat]? = some e → e.desc.accessRights &&& s.cfg.access.write ≠ 0 →
      (∀ v, x = some v → Datatype.ofCode s.cfg.toProtocol e.desc.dtype = some v.dt →
        v.fits s.cfg.toProtocol = false) →
      exec (.writePointData i x) s = .refused .illFormedWrite)
end

