-- ==== Sys2Proof/Laws/Codec.lean ====
section
/-!
SUPPORT. The codec: what the shared frame checks can answer, the shape of packed frames, and that the
packer and the checker agree; value and structure marshalling are inverse.
-/

namespace Sys2Proof

/-! ### Byte order -/

@[simp] theorem length_leBytes (n v : Nat) : (leBytes n v).length = n := by simp [leBytes]

/-- `from_le` of bytes `k` to `k + n - 1` of a number. -/
theorem fromLe_map_shift (v n k : Nat) :
    fromLe ((List.range' k n).map fun j => BitVec.ofNat 8 (v >>> (8 * j))) =
      (v >>> (8 * k)) % 2 ^ (8 * n) := by
  induction n generalizing k with
  | zero => simp [fromLe, Nat.mod_one]
  | succ n ih =>
    simp only [List.range'_succ, List.map_cons, fromLe, BitVec.toNat_ofNat]
    rw [ih (k + 1)]
    have h1 : v >>> (8 * (k + 1)) = (v >>> (8 * k)) / 256 := by
      rw [Nat.mul_add, Nat.shiftRight_add, Nat.shiftRight_eq_div_pow (v >>> (8 * k))]
    have h2 : 2 ^ (8 * (n + 1)) = 256 * 2 ^ (8 * n) := by
      rw [Nat.mul_add, Nat.pow_add]; omega
    rw [h1, h2, Nat.mod_mul]

/-- `from_le` of the `n` bytes of a number (00_scope.md R25). -/
theorem fromLe_leBytes (n v : Nat) : fromLe (leBytes n v) = v % 2 ^ (8 * n) := by
  simpa [leBytes, List.range_eq_range'] using fromLe_map_shift v n 0

/-- A byte sequence assembles to a number below `2^8` to its length. -/
theorem fromLe_lt (bs : List Byte) : fromLe bs < 2 ^ (8 * bs.length) := by
  induction bs with
  | nil => simp [fromLe]
  | cons b bs ih =>
    have h : 2 ^ (8 * (bs.length + 1)) = 256 * 2 ^ (8 * bs.length) := by
      rw [Nat.mul_add, Nat.pow_add]; omega
    simp only [fromLe, List.length_cons, h]
    have := b.isLt
    omega

/-- The bytes from `k` on of a number whose lower bytes are dropped. -/
theorem leBytes_succ (n v : Nat) : leBytes (n + 1) v = BitVec.ofNat 8 v :: leBytes n (v / 256) := by
  simp only [leBytes, List.range_succ_eq_map, List.map_cons, List.map_map, Nat.mul_zero,
    Nat.shiftRight_zero]
  congr 1
  refine List.map_congr_left fun j _ => ?_
  simp only [Function.comp, Nat.succ_eq_add_one, Nat.mul_add, Nat.add_comm (8 * j), Nat.shiftRight_add]
  rw [Nat.shiftRight_eq_div_pow v]

/-- Assembling bytes and laying them down again is the identity (30_encoding.md R164). -/
theorem leBytes_fromLe (bs : List Byte) : leBytes bs.length (fromLe bs) = bs := by
  induction bs with
  | nil => rfl
  | cons b bs ih =>
    have h1 : (b.toNat + 256 * fromLe bs) / 256 = fromLe bs := by have := b.isLt; omega
    have h2 : BitVec.ofNat 8 (b.toNat + 256 * fromLe bs) = b := by
      apply BitVec.eq_of_toNat_eq
      have := b.isLt
      simp only [BitVec.toNat_ofNat]
      omega
    rw [List.length_cons, leBytes_succ, fromLe, h1, h2, ih]

/-- Laying a pattern down and assembling it again is the identity. -/
theorem fromLeBits_leBytes (n : Nat) {w : Nat} (v : BitVec w) (h : w = 8 * n) :
    fromLeBits w (leBytes n v.toNat) = v := by
  apply BitVec.eq_of_toNat_eq
  have := v.isLt
  simp [fromLeBits, fromLe_leBytes, ← h]

/-! ### Values -/

@[simp] theorem Value.length_bytes (p : Protocol) (x : Value) : (x.bytes p).length = x.dt.size p := by
  simp [Value.bytes]

@[simp] theorem Value.ofBytes_dt (dt : Datatype) (pl : List Byte) : (Value.ofBytes dt pl).dt = dt := rfl

/-- Every value of its width survives marshalling bit for bit (30_encoding.md R167). -/
theorem Value.ofBytes_bytes {p : Protocol} {x : Value} (h : x.fits p = true) :
    Value.ofBytes x.dt (x.bytes p) = x := by
  have h' : x.raw < 2 ^ (8 * x.dt.size p) := by simpa [Value.fits] using h
  obtain ⟨dt, raw⟩ := x
  simp_all [Value.ofBytes, Value.bytes, fromLe_leBytes, Nat.mod_eq_of_lt]

/-- Bytes of the datatype's size stand for a value of its width. -/
theorem Value.fits_ofBytes {p : Protocol} {dt : Datatype} {pl : List Byte}
    (h : pl.length = dt.size p) : (Value.ofBytes dt pl).fits p = true := by
  simpa [Value.fits, Value.ofBytes, ← h] using fromLe_lt pl

/-- Bytes of the datatype's size are those of the value they stand for. -/
theorem Value.bytes_ofBytes {p : Protocol} {dt : Datatype} {pl : List Byte}
    (h : pl.length = dt.size p) : (Value.ofBytes dt pl).bytes p = pl := by
  simpa [Value.bytes, Value.ofBytes, ← h] using leBytes_fromLe pl

/-- A descriptor's datatype and the width of the value (41_codec.md R215). -/
theorem PointDesc.takes_iff {p : Protocol} {d : PointDesc} {x : Value} :
    d.takes p x = true ↔ Datatype.ofCode p d.dtype = some x.dt ∧ x.fits p = true := by
  simp [PointDesc.takes]

/-! ### Structures -/

/-- A byte array read back at its own offset is the array. -/
theorem bytesAt_append (pre v post : List Byte) :
    bytesAt (pre ++ v ++ post) pre.length v.length = v := by simp [bytesAt]

@[simp] theorem BoardId.length_bytes (b : BoardId) :
    b.bytes.length = b.manufacturer.length + b.model.length + 7 := by
  simp [BoardId.bytes]; omega

@[simp] theorem PointDesc.length_bytes (d : PointDesc) : d.bytes.length = d.name.length + 4 := by
  simp [PointDesc.bytes]

/-- A board identity survives its layout (30_encoding.md R150). -/
theorem BoardId.ofBytes_bytes {z : FieldSizes} {b : BoardId} (h : b.fits z = true) :
    BoardId.ofBytes z b.bytes = b := by
  obtain ⟨m, md, sid, hw, np, cap⟩ := b
  obtain ⟨hm, hmd⟩ : m.length = z.manufName ∧ md.length = z.modelName := by
    simpa [BoardId.fits] using h
  have hd : (m ++ md ++ leBytes 4 sid.toNat ++ [hw, np, cap]).drop (z.manufName + z.modelName) =
      leBytes 4 sid.toNat ++ [hw, np, cap] := by
    rw [← hm, ← hmd, ← List.length_append, List.append_assoc, List.drop_left]
  have h1 := bytesAt_append [] m (md ++ leBytes 4 sid.toNat ++ [hw, np, cap])
  have h2 := bytesAt_append m md (leBytes 4 sid.toNat ++ [hw, np, cap])
  have h3 := bytesAt_append [] (leBytes 4 sid.toNat) [hw, np, cap]
  have h4 := fromLeBits_leBytes 4 sid rfl
  simp only [BoardId.ofBytes, BoardId.bytes, hd]
  simp_all [List.getD]

/-- A descriptor survives its layout (30_encoding.md R152). -/
theorem PointDesc.ofBytes_bytes {z : FieldSizes} {d : PointDesc} (h : d.fits z = true) :
    PointDesc.ofBytes z d.bytes = d := by
  obtain ⟨n, dt, u, acc, st⟩ := d
  have hn : n.length = z.pointName := by simpa [PointDesc.fits] using h
  have h1 := bytesAt_append [] n [dt, u, acc, st]
  have hd : (n ++ [dt, u, acc, st]).drop z.pointName = [dt, u, acc, st] := by rw [← hn, List.drop_left]
  simp only [PointDesc.ofBytes, PointDesc.bytes, hd]
  simp_all

/-- A payload of the identity's size gives names of their sizes. -/
theorem BoardId.fits_ofBytes {z : FieldSizes} {pl : List Byte} (h : pl.length = z.boardId) :
    (BoardId.ofBytes z pl).fits z = true := by
  simp only [FieldSizes.boardId] at h
  simp only [BoardId.fits, BoardId.ofBytes, bytesAt, Bool.and_eq_true, beq_iff_eq, List.length_take,
    List.length_drop]
  omega

/-- A payload of the descriptor's size gives a name of its size. -/
theorem PointDesc.fits_ofBytes {z : FieldSizes} {pl : List Byte} (h : pl.length = z.pointDesc) :
    (PointDesc.ofBytes z pl).fits z = true := by
  simp only [FieldSizes.pointDesc] at h
  simp only [PointDesc.fits, PointDesc.ofBytes, bytesAt, beq_iff_eq, List.length_take, List.length_drop]
  omega

/-! ### Datatype codes -/

/-- The ten datatypes are all there are. -/
theorem Datatype.mem_all (dt : Datatype) : dt ∈ Datatype.all := by cases dt <;> decide

/-- A code that a datatype answers to is that datatype's. -/
theorem Datatype.code_of_ofCode {p : Protocol} {c : Byte} {dt : Datatype}
    (h : Datatype.ofCode p c = some dt) : dt.code p = c := by
  simpa using List.find?_some h

/-- The datatype of a datatype's code, when no two share one. -/
theorem Datatype.ofCode_code {p : Protocol} (h : (Datatype.all.map (Datatype.code p)).Nodup)
    (dt : Datatype) : Datatype.ofCode p (dt.code p) = some dt := by
  cases h' : Datatype.ofCode p (dt.code p) with
  | none => exact absurd (List.find?_eq_none.1 h' dt dt.mem_all) (by simp)
  | some d =>
    exact congrArg some (List.inj_on_of_nodup_map h d.mem_all dt.mem_all (code_of_ofCode h'))

/-! ### Frames -/

@[simp] theorem length_crcBytes (p : CrcParams) (body : Frame) : (crcBytes p body).length = 2 := rfl

@[simp] theorem length_packRequest (p : CrcParams) (a : Byte) (pl : List Byte) :
    (packRequest p a pl).length = pl.length + 4 := by simp [packRequest]

/-- Everything the shared checks can accept: the frame is there, its size byte covers the header, and its
CRC is the computed one; the answer is the covered part. -/
theorem checkFrame_ok {p : CrcParams} {hdr : Nat} {buf body : Frame}
    (h : checkFrame p hdr buf = .ok body) :
    3 ≤ buf.length ∧ hdr ≤ (buf.getD 0 0).toNat ∧ (buf.getD 0 0).toNat + 2 ≤ buf.length ∧
      body = buf.take (buf.getD 0 0).toNat ∧
      crc16 p body = buf.getD ((buf.getD 0 0).toNat + 1) 0 ++ buf.getD (buf.getD 0 0).toNat 0 := by
  unfold checkFrame at h
  simp only at h
  split at h
  · cases h
  split at h
  · cases h
  split at h
  · cases h
  split at h
  · cases h
  rename_i hcrc
  cases h
  exact ⟨by omega, by omega, by omega, rfl, not_not.1 hcrc⟩

/-- The body of a frame whose size byte is its length passes the checks with its own CRC bytes, whatever
follows them (41_codec.md R211). -/
theorem checkFrame_packed (p : CrcParams) (hdr : Nat) (body rest : Frame) (hne : 2 ≤ body.length)
    (hdr_le : hdr ≤ body.length) (hsize : (body.getD 0 0).toNat = body.length) :
    checkFrame p hdr (body ++ crcBytes p body ++ rest) = .ok body := by
  have h0 : ((body ++ crcBytes p body ++ rest).getD 0 0).toNat = body.length := by
    rw [← hsize, List.append_assoc]
    cases body with
    | nil => simp at hne
    | cons b bs => rfl
  have hlo : (body ++ crcBytes p body ++ rest).getD body.length 0 =
      (crc16 p body).extractLsb' 0 8 := by
    simp [List.getD, crcBytes]
  have hhi : (body ++ crcBytes p body ++ rest).getD (body.length + 1) 0 =
      (crc16 p body).extractLsb' 8 8 := by
    simp [List.getD, crcBytes]
  have hcrc : (crc16 p body).extractLsb' 8 8 ++ (crc16 p body).extractLsb' 0 8 = crc16 p body := by
    rw [BitVec.extractLsb'_append_extractLsb'_eq_extractLsb' (by rfl)]
    exact BitVec.extractLsb'_eq_self
  unfold checkFrame
  simp only [h0, hlo, hhi]
  have hlen : (body ++ crcBytes p body ++ rest).length = body.length + 2 + rest.length := by simp; omega
  rw [if_neg (by omega), if_neg (by omega), if_neg (by omega)]
  have htake : (body ++ crcBytes p body ++ rest).take body.length = body := by
    simp [List.append_assoc]
  rw [htake, if_neg]
  exact not_not.2 hcrc.symm

/-- A packed request passes the shared checks (41_codec.md R205, R210). -/
theorem checkFrame_packRequest (p : CrcParams) (a : Byte) (pl : List Byte)
    (h : pl.length ≤ 253) :
    checkFrame p 2 (packRequest p a pl) = .ok (BitVec.ofNat 8 (2 + pl.length) :: a :: pl) := by
  have := checkFrame_packed p 2 (BitVec.ofNat 8 (2 + pl.length) :: a :: pl) [] (by simp) (by simp)
    (by simp; omega)
  simpa [packRequest] using this

/-! ### Addresses -/

/-- The address of the row UNMAPPED_LO_0C, as a sum. -/
theorem UnmappedRow.addr0C_eq (lo : BitVec 2) : UnmappedRow.addr0C lo = 0x0C + lo.setWidth 8 := by
  revert lo; decide

/-- The address of the row UNMAPPED_LO_10, as a sum. -/
theorem UnmappedRow.addr10_eq (lo : BitVec 4) : UnmappedRow.addr10 lo = 0x10 + lo.setWidth 8 := by
  revert lo; decide

/-- An address in a range is the base with the index `classify` gives it, and the index is in the range. -/
theorem eq_of_inRange {n : Nat} {base a : Byte} (h : inRange n base a = true) :
    (a - base).toNat < n ∧ a = base + (a - base) := by
  simp only [inRange, decide_eq_true_eq] at h
  constructor <;> bv_omega

/-- What a range test says: the address is the range's base with its index, and nothing else has it. -/
theorem inRange_iff {n : Nat} {base a : Byte} (h : base.toNat + n ≤ 256) :
    inRange n base a = true ↔ ∃ i : BitVec 8, i.toNat < n ∧ a = base + i := by
  refine ⟨fun ha => ⟨_, eq_of_inRange ha⟩, ?_⟩
  rintro ⟨i, hi, rfl⟩
  simp only [inRange, decide_eq_true_eq]
  bv_omega

/-- The index of an address built from its index. -/
@[simp] theorem add_sub_base (base i : Byte) : base + i - base = i := by bv_omega

/-- What it means that no two addresses of a map overlap. -/
theorem AddrMap.ok_iff (m : AddrMap) (n : Nat) : m.ok n = true ↔
    m.singles.Nodup ∧ (∀ b ∈ m.bases, b.toNat + n ≤ 256) ∧
      (m.bases.Pairwise fun b c => b.toNat + n ≤ c.toNat ∨ c.toNat + n ≤ b.toNat) ∧
      ∀ b ∈ m.bases, ∀ a ∈ m.singles, inRange n b a = false := decide_eq_true_iff

/-- What the parameters satisfy (notes/assumptions/7.md). -/
theorem Protocol.ok_iff (p : Protocol) : p.ok = true ↔
    p.fieldSizes.boardId ≤ 252 ∧ p.fieldSizes.pointDesc ≤ 252 ∧ p.fieldSizes.svrAddr ≤ 252 ∧
      p.fieldSizes.dspMsg ≤ 253 ∧ (∀ dt ∈ Datatype.all, 1 ≤ dt.size p ∧ dt.size p ≤ 252) ∧
      p.status.all.Nodup ∧ (Datatype.all.map (Datatype.code p)).Nodup ∧
      p.addrs.ok p.maxPoints = true := decide_eq_true_iff

/-- What the configuration satisfies (70_reset_and_hazards.md R385, notes/assumptions/7.md). -/
theorem Config.ok_iff (c : Config) : c.ok = true ↔
    c.crc.poly.getLsbD 0 = true ∧ c.tickMs ≠ 0 ∧ 257 ≤ c.rxBufSize ∧ c.rxBufSize < 2 ^ 16 ∧
      c.timeoutTicks + 1 < 2 ^ 32 ∧ c.maxRetries + 1 < 2 ^ 8 ∧ c.toProtocol.ok = true ∧
      c.np = c.points.length ∧ c.np ≤ c.maxPoints ∧ c.brd.fits c.fieldSizes = true ∧
      c.svrMain.length = c.fieldSizes.svrAddr ∧ c.svrSec.length = c.fieldSizes.svrAddr ∧
      ∀ e ∈ c.points, e.ok c.toProtocol = true := decide_eq_true_iff

/-- Everything `classify` can answer: the class says where the address comes from
(30_encoding.md R131). -/
theorem classify_cases (p : Protocol) (a : Byte) :
    (∃ i : BitVec 8, classify p a = .pointDesc i ∧ i.toNat < p.maxPoints ∧
        a = p.addrs.pointDescBase + i) ∨
      (∃ i : BitVec 8, classify p a = .readPoint i ∧ i.toNat < p.maxPoints ∧
        a = p.addrs.readPointDataBase + i) ∨
      (∃ i : BitVec 8, classify p a = .writePoint i ∧ i.toNat < p.maxPoints ∧
        a = p.addrs.writePointDataBase + i) ∨
      (∃ r : Singleton, classify p a = .singleton r ∧ a = r.addr p.addrs) ∨
      (classify p a = .unmapped ∧ a ∉ p.addrs.singles ∧
        ∀ b ∈ p.addrs.bases, inRange p.maxPoints b a = false) := by
  unfold classify
  split
  · exact .inl ⟨_, rfl, eq_of_inRange (by assumption)⟩
  split
  · exact .inr (.inl ⟨_, rfl, eq_of_inRange (by assumption)⟩)
  split
  · exact .inr (.inr (.inl ⟨_, rfl, eq_of_inRange (by assumption)⟩))
  split
  · rename_i r hr
    have := List.find?_some hr
    exact .inr (.inr (.inr (.inl ⟨r, rfl, (beq_iff_eq.1 this).symm⟩)))
  · rename_i h1 h2 h3 _ hr
    refine .inr (.inr (.inr (.inr ⟨rfl, ?_, ?_⟩)))
    · intro ha
      obtain ⟨r, hr', rfl⟩ := List.mem_map.1 ha
      exact absurd (List.find?_eq_none.1 hr r hr') (by simp)
    · simp only [AddrMap.bases, List.mem_cons, List.not_mem_nil, or_false]
      rintro b (rfl | rfl | rfl)
      · exact Bool.eq_false_iff.2 h1
      · exact Bool.eq_false_iff.2 h2
      · exact Bool.eq_false_iff.2 h3

end Sys2Proof
end

