-- ==== Sys2Proof/Laws/Memory.lean ====
section
/-!
SUPPORT. The receive-buffer memory: a read after a write, and the canonical form, which every write keeps
and the empty buffer of a reset has.
-/

namespace Sys2Proof.Machine

/-- A memory whose offsets are all above `a`. -/
def Memory.above (a : Nat) (m : Memory) : Prop := ∀ c ∈ m, a < c.1

theorem Memory.wf_nil : Memory.wf [] := ⟨List.Pairwise.nil, by simp⟩

theorem Memory.wf_cons {c : Host.Cell} {m : Memory} :
    Memory.wf (c :: m) ↔ Memory.above c.1 m ∧ c.2 ≠ unwrittenByte ∧ Memory.wf m := by
  simp only [Memory.wf, Memory.above, List.pairwise_cons, List.forall_mem_cons]
  tauto

theorem Memory.read_above {m : Memory} {a : Nat} (h : Memory.above a m) :
    Memory.read m a = unwrittenByte := by
  induction m with
  | nil => rfl
  | cons c m ih =>
    obtain ⟨k, v⟩ := c
    have hk : a < k := h (k, v) (by simp)
    simp only [Memory.read, if_neg (Nat.ne_of_gt hk)]
    exact ih fun c hc => h c (by simp [hc])

/-- Putting a byte in front of a memory whose offsets are above it. -/
theorem Memory.wf_consByte {m : Memory} (hm : Memory.wf m) {a : Nat} (h : Memory.above a m)
    (b : Byte) : Memory.wf (Memory.cons a b m) := by
  unfold Memory.cons
  split
  · exact hm
  · exact Memory.wf_cons.2 ⟨h, by assumption, hm⟩

theorem Memory.read_consByte {m : Memory} {a : Nat} (h : Memory.above a m) (b : Byte) (x : Nat) :
    Memory.read (Memory.cons a b m) x = if x = a then b else Memory.read m x := by
  unfold Memory.cons
  split
  · split
    · subst_vars; exact Memory.read_above h
    · rfl
  · simp only [Memory.read, eq_comm]

theorem Memory.above_write {m : Memory} {lo a : Nat} (h : Memory.above lo m) (ha : lo < a)
    (b : Byte) : Memory.above lo (Memory.write m a b) := by
  have hc : ∀ m', Memory.above lo m' → Memory.above lo (Memory.cons a b m') := by
    intro m' hm'
    unfold Memory.cons
    split
    · exact hm'
    · intro c hc
      rcases List.mem_cons.1 hc with rfl | hc
      · exact ha
      · exact hm' c hc
  induction m with
  | nil => exact hc [] h
  | cons c m ih =>
    obtain ⟨k, v⟩ := c
    have hm : Memory.above lo m := fun c hc => h c (by simp [hc])
    simp only [Memory.write]
    split
    · exact hc _ h
    · split
      · exact hc _ hm
      · intro c hc
        rcases List.mem_cons.1 hc with rfl | hc
        · exact h _ (by simp)
        · exact ih hm c hc

/-- Everything a write does: it keeps the canonical form, and only the written offset reads anew. -/
theorem Memory.write_spec {m : Memory} (hm : Memory.wf m) (a : Nat) (b : Byte) :
    Memory.wf (Memory.write m a b) ∧
      ∀ x, Memory.read (Memory.write m a b) x = if x = a then b else Memory.read m x := by
  induction m with
  | nil =>
    have h : Memory.above a [] := by simp [Memory.above]
    exact ⟨Memory.wf_consByte hm h b, Memory.read_consByte h b⟩
  | cons c m ih =>
    obtain ⟨k, v⟩ := c
    obtain ⟨hk, hv, hm'⟩ := Memory.wf_cons.1 hm
    simp only [Memory.write]
    split
    · have h : Memory.above a ((k, v) :: m) := by
        intro c hc
        rcases List.mem_cons.1 hc with rfl | hc
        · assumption
        · exact Nat.lt_trans ‹a < k› (hk c hc)
      exact ⟨Memory.wf_consByte hm h b, Memory.read_consByte h b⟩
    · split
      · subst_vars
        refine ⟨Memory.wf_consByte hm' hk b, fun x => ?_⟩
        rw [Memory.read_consByte hk]
        split
        · rfl
        · rename_i hx
          simp only [Memory.read, if_neg (Ne.symm hx)]
      · have hlt : k < a := by omega
        refine ⟨Memory.wf_cons.2 ⟨Memory.above_write hk hlt b, hv, (ih hm').1⟩, fun x => ?_⟩
        simp only [Memory.read, (ih hm').2 x]
        grind

/-- A write keeps the canonical form. -/
theorem Memory.write_wf {m : Memory} (hm : Memory.wf m) (a : Nat) (b : Byte) :
    Memory.wf (Memory.write m a b) := (Memory.write_spec hm a b).1

/-- A byte just written reads as written. -/
theorem Memory.read_write_self {m : Memory} (hm : Memory.wf m) (a : Nat) (b : Byte) :
    Memory.read (Memory.write m a b) a = b := by rw [(Memory.write_spec hm a b).2]; simp

/-- A write leaves every other offset alone. -/
theorem Memory.read_write_of_ne {m : Memory} (hm : Memory.wf m) (a : Nat) (b : Byte) {x : Nat}
    (h : x ≠ a) : Memory.read (Memory.write m a b) x = Memory.read m x := by
  rw [(Memory.write_spec hm a b).2, if_neg h]

@[simp] theorem Memory.length_bytes (m : Memory) (off n : Nat) :
    (Memory.bytes m off n).length = n := by simp [Memory.bytes]

/-- One more byte of a buffer is appended to the bytes before it. -/
theorem Memory.bytes_succ (m : Memory) (off n : Nat) :
    Memory.bytes m off (n + 1) = Memory.bytes m off n ++ [Memory.read m (off + n)] := by
  simp [Memory.bytes, List.range_succ]

/-- A byte written past the end of a run leaves the run as it was. -/
theorem Memory.bytes_write {m : Memory} (hm : Memory.wf m) (off n a : Nat) (b : Byte)
    (h : off + n ≤ a) : Memory.bytes (Memory.write m a b) off n = Memory.bytes m off n := by
  simp only [Memory.bytes]
  refine List.map_congr_left fun k hk => Memory.read_write_of_ne hm a b ?_
  have := List.mem_range.1 hk
  omega

/-- Everything a buffer read can answer. -/
theorem memRead_eq_some {size : Nat} {m : Memory} {off n : Nat} {f : Frame} :
    memRead size m off n = some f ↔ off + n ≤ size ∧ f = Memory.bytes m off n := by
  unfold memRead
  split <;> simp_all [eq_comm]

end Sys2Proof.Machine
end

