-- ==== Sys2Proof/Laws/State.lean ====
section
/-!
SUPPORT. One lemma per field per named update, so that no proof unfolds a record update.
-/

namespace Sys2Proof.Machine

/-! `Poller.goto` -/

@[simp] theorem Poller.goto_state (p : Poller) (c : BitVec 4) : (p.goto c).state = c := rfl
@[simp] theorem Poller.goto_brd (p : Poller) (c : BitVec 4) : (p.goto c).brd = p.brd := rfl
@[simp] theorem Poller.goto_ptCount (p : Poller) (c : BitVec 4) :
    (p.goto c).ptCount = p.ptCount := rfl
@[simp] theorem Poller.goto_ptTable (p : Poller) (c : BitVec 4) :
    (p.goto c).ptTable = p.ptTable := rfl
@[simp] theorem Poller.goto_sched (p : Poller) (c : BitVec 4) : (p.goto c).sched = p.sched := rfl
@[simp] theorem Poller.goto_due (p : Poller) (c : BitVec 4) : (p.goto c).due = p.due := rfl
@[simp] theorem Poller.goto_cursor (p : Poller) (c : BitVec 4) : (p.goto c).cursor = p.cursor := rfl
@[simp] theorem Poller.goto_retries (p : Poller) (c : BitVec 4) :
    (p.goto c).retries = p.retries := rfl
@[simp] theorem Poller.goto_tickCnt (p : Poller) (c : BitVec 4) :
    (p.goto c).tickCnt = p.tickCnt := rfl
@[simp] theorem Poller.goto_timeoutTicks (p : Poller) (c : BitVec 4) :
    (p.goto c).timeoutTicks = p.timeoutTicks := rfl
@[simp] theorem Poller.goto_rxBuf (p : Poller) (c : BitVec 4) : (p.goto c).rxBuf = p.rxBuf := rfl
@[simp] theorem Poller.goto_rxCount (p : Poller) (c : BitVec 4) :
    (p.goto c).rxCount = p.rxCount := rfl
@[simp] theorem Poller.goto_frameArrived (p : Poller) (c : BitVec 4) :
    (p.goto c).frameArrived = p.frameArrived := rfl

/-! `Poller.clearSession` -/

@[simp] theorem Poller.clearSession_state (p : Poller) (n : Nat) :
    (p.clearSession n).state = p.state := rfl
@[simp] theorem Poller.clearSession_brd (p : Poller) (n : Nat) :
    (p.clearSession n).brd = none := rfl
@[simp] theorem Poller.clearSession_ptCount (p : Poller) (n : Nat) :
    (p.clearSession n).ptCount = 0 := rfl
@[simp] theorem Poller.clearSession_ptTable (p : Poller) (n : Nat) :
    (p.clearSession n).ptTable = List.replicate n none := rfl
@[simp] theorem Poller.clearSession_sched (p : Poller) (n : Nat) :
    (p.clearSession n).sched = [] := rfl
@[simp] theorem Poller.clearSession_due (p : Poller) (n : Nat) : (p.clearSession n).due = [] := rfl
@[simp] theorem Poller.clearSession_cursor (p : Poller) (n : Nat) :
    (p.clearSession n).cursor = 0 := rfl
@[simp] theorem Poller.clearSession_retries (p : Poller) (n : Nat) :
    (p.clearSession n).retries = 0 := rfl
@[simp] theorem Poller.clearSession_tickCnt (p : Poller) (n : Nat) :
    (p.clearSession n).tickCnt = 0 := rfl
@[simp] theorem Poller.clearSession_timeoutTicks (p : Poller) (n : Nat) :
    (p.clearSession n).timeoutTicks = 0 := rfl
@[simp] theorem Poller.clearSession_rxBuf (p : Poller) (n : Nat) :
    (p.clearSession n).rxBuf = p.rxBuf := rfl
@[simp] theorem Poller.clearSession_rxCount (p : Poller) (n : Nat) :
    (p.clearSession n).rxCount = p.rxCount := rfl
@[simp] theorem Poller.clearSession_frameArrived (p : Poller) (n : Nat) :
    (p.clearSession n).frameArrived = p.frameArrived := rfl

/-! `Poller.arm` -/

@[simp] theorem Poller.arm_state (p : Poller) (t : BitVec 32) : (p.arm t).state = p.state := rfl
@[simp] theorem Poller.arm_brd (p : Poller) (t : BitVec 32) : (p.arm t).brd = p.brd := rfl
@[simp] theorem Poller.arm_ptCount (p : Poller) (t : BitVec 32) :
    (p.arm t).ptCount = p.ptCount := rfl
@[simp] theorem Poller.arm_ptTable (p : Poller) (t : BitVec 32) :
    (p.arm t).ptTable = p.ptTable := rfl
@[simp] theorem Poller.arm_sched (p : Poller) (t : BitVec 32) : (p.arm t).sched = p.sched := rfl
@[simp] theorem Poller.arm_due (p : Poller) (t : BitVec 32) : (p.arm t).due = p.due := rfl
@[simp] theorem Poller.arm_cursor (p : Poller) (t : BitVec 32) : (p.arm t).cursor = p.cursor := rfl
@[simp] theorem Poller.arm_retries (p : Poller) (t : BitVec 32) :
    (p.arm t).retries = p.retries := rfl
@[simp] theorem Poller.arm_tickCnt (p : Poller) (t : BitVec 32) : (p.arm t).tickCnt = 0 := rfl
@[simp] theorem Poller.arm_timeoutTicks (p : Poller) (t : BitVec 32) :
    (p.arm t).timeoutTicks = t := rfl
@[simp] theorem Poller.arm_rxBuf (p : Poller) (t : BitVec 32) : (p.arm t).rxBuf = p.rxBuf := rfl
@[simp] theorem Poller.arm_rxCount (p : Poller) (t : BitVec 32) : (p.arm t).rxCount = 0 := rfl
@[simp] theorem Poller.arm_frameArrived (p : Poller) (t : BitVec 32) :
    (p.arm t).frameArrived = false := rfl

/-! `Poller.countTick` -/

@[simp] theorem Poller.countTick_state (p : Poller) : (p.countTick).state = p.state := rfl
@[simp] theorem Poller.countTick_brd (p : Poller) : (p.countTick).brd = p.brd := rfl
@[simp] theorem Poller.countTick_ptCount (p : Poller) : (p.countTick).ptCount = p.ptCount := rfl
@[simp] theorem Poller.countTick_ptTable (p : Poller) : (p.countTick).ptTable = p.ptTable := rfl
@[simp] theorem Poller.countTick_sched (p : Poller) : (p.countTick).sched = p.sched := rfl
@[simp] theorem Poller.countTick_due (p : Poller) : (p.countTick).due = p.due := rfl
@[simp] theorem Poller.countTick_cursor (p : Poller) : (p.countTick).cursor = p.cursor := rfl
@[simp] theorem Poller.countTick_retries (p : Poller) : (p.countTick).retries = p.retries := rfl
@[simp] theorem Poller.countTick_tickCnt (p : Poller) : (p.countTick).tickCnt = p.tickCnt + 1 := rfl
@[simp] theorem Poller.countTick_timeoutTicks (p : Poller) :
    (p.countTick).timeoutTicks = p.timeoutTicks := rfl
@[simp] theorem Poller.countTick_rxBuf (p : Poller) : (p.countTick).rxBuf = p.rxBuf := rfl
@[simp] theorem Poller.countTick_rxCount (p : Poller) : (p.countTick).rxCount = p.rxCount := rfl
@[simp] theorem Poller.countTick_frameArrived (p : Poller) :
    (p.countTick).frameArrived = p.frameArrived := rfl

/-! `Poller.countRetry` -/

@[simp] theorem Poller.countRetry_state (p : Poller) : (p.countRetry).state = p.state := rfl
@[simp] theorem Poller.countRetry_brd (p : Poller) : (p.countRetry).brd = p.brd := rfl
@[simp] theorem Poller.countRetry_ptCount (p : Poller) : (p.countRetry).ptCount = p.ptCount := rfl
@[simp] theorem Poller.countRetry_ptTable (p : Poller) : (p.countRetry).ptTable = p.ptTable := rfl
@[simp] theorem Poller.countRetry_sched (p : Poller) : (p.countRetry).sched = p.sched := rfl
@[simp] theorem Poller.countRetry_due (p : Poller) : (p.countRetry).due = p.due := rfl
@[simp] theorem Poller.countRetry_cursor (p : Poller) : (p.countRetry).cursor = p.cursor := rfl
@[simp] theorem Poller.countRetry_retries (p : Poller) :
    (p.countRetry).retries = p.retries + 1 := rfl
@[simp] theorem Poller.countRetry_tickCnt (p : Poller) : (p.countRetry).tickCnt = p.tickCnt := rfl
@[simp] theorem Poller.countRetry_timeoutTicks (p : Poller) :
    (p.countRetry).timeoutTicks = p.timeoutTicks := rfl
@[simp] theorem Poller.countRetry_rxBuf (p : Poller) : (p.countRetry).rxBuf = p.rxBuf := rfl
@[simp] theorem Poller.countRetry_rxCount (p : Poller) : (p.countRetry).rxCount = p.rxCount := rfl
@[simp] theorem Poller.countRetry_frameArrived (p : Poller) :
    (p.countRetry).frameArrived = p.frameArrived := rfl

/-! `Poller.setBoard` -/

@[simp] theorem Poller.setBoard_state (p : Poller) (b : BoardId) :
    (p.setBoard b).state = p.state := rfl
@[simp] theorem Poller.setBoard_brd (p : Poller) (b : BoardId) : (p.setBoard b).brd = some b := rfl
@[simp] theorem Poller.setBoard_ptCount (p : Poller) (b : BoardId) :
    (p.setBoard b).ptCount = p.ptCount := rfl
@[simp] theorem Poller.setBoard_ptTable (p : Poller) (b : BoardId) :
    (p.setBoard b).ptTable = p.ptTable := rfl
@[simp] theorem Poller.setBoard_sched (p : Poller) (b : BoardId) :
    (p.setBoard b).sched = p.sched := rfl
@[simp] theorem Poller.setBoard_due (p : Poller) (b : BoardId) : (p.setBoard b).due = p.due := rfl
@[simp] theorem Poller.setBoard_cursor (p : Poller) (b : BoardId) :
    (p.setBoard b).cursor = p.cursor := rfl
@[simp] theorem Poller.setBoard_retries (p : Poller) (b : BoardId) :
    (p.setBoard b).retries = p.retries := rfl
@[simp] theorem Poller.setBoard_tickCnt (p : Poller) (b : BoardId) :
    (p.setBoard b).tickCnt = p.tickCnt := rfl
@[simp] theorem Poller.setBoard_timeoutTicks (p : Poller) (b : BoardId) :
    (p.setBoard b).timeoutTicks = p.timeoutTicks := rfl
@[simp] theorem Poller.setBoard_rxBuf (p : Poller) (b : BoardId) :
    (p.setBoard b).rxBuf = p.rxBuf := rfl
@[simp] theorem Poller.setBoard_rxCount (p : Poller) (b : BoardId) :
    (p.setBoard b).rxCount = p.rxCount := rfl
@[simp] theorem Poller.setBoard_frameArrived (p : Poller) (b : BoardId) :
    (p.setBoard b).frameArrived = p.frameArrived := rfl

/-! `Poller.clearCount` -/

@[simp] theorem Poller.clearCount_state (p : Poller) : (p.clearCount).state = p.state := rfl
@[simp] theorem Poller.clearCount_brd (p : Poller) : (p.clearCount).brd = p.brd := rfl
@[simp] theorem Poller.clearCount_ptCount (p : Poller) : (p.clearCount).ptCount = 0 := rfl
@[simp] theorem Poller.clearCount_ptTable (p : Poller) : (p.clearCount).ptTable = p.ptTable := rfl
@[simp] theorem Poller.clearCount_sched (p : Poller) : (p.clearCount).sched = p.sched := rfl
@[simp] theorem Poller.clearCount_due (p : Poller) : (p.clearCount).due = p.due := rfl
@[simp] theorem Poller.clearCount_cursor (p : Poller) : (p.clearCount).cursor = p.cursor := rfl
@[simp] theorem Poller.clearCount_retries (p : Poller) : (p.clearCount).retries = p.retries := rfl
@[simp] theorem Poller.clearCount_tickCnt (p : Poller) : (p.clearCount).tickCnt = p.tickCnt := rfl
@[simp] theorem Poller.clearCount_timeoutTicks (p : Poller) :
    (p.clearCount).timeoutTicks = p.timeoutTicks := rfl
@[simp] theorem Poller.clearCount_rxBuf (p : Poller) : (p.clearCount).rxBuf = p.rxBuf := rfl
@[simp] theorem Poller.clearCount_rxCount (p : Poller) : (p.clearCount).rxCount = p.rxCount := rfl
@[simp] theorem Poller.clearCount_frameArrived (p : Poller) :
    (p.clearCount).frameArrived = p.frameArrived := rfl

/-! `Poller.addPoint` -/

@[simp] theorem Poller.addPoint_state (p : Poller) (d : PointDesc) :
    (p.addPoint d).state = p.state := rfl
@[simp] theorem Poller.addPoint_brd (p : Poller) (d : PointDesc) : (p.addPoint d).brd = p.brd := rfl
@[simp] theorem Poller.addPoint_ptCount (p : Poller) (d : PointDesc) :
    (p.addPoint d).ptCount = p.ptCount + 1 := rfl
@[simp] theorem Poller.addPoint_ptTable (p : Poller) (d : PointDesc) :
    (p.addPoint d).ptTable = p.ptTable.set p.ptCount.toNat (some { desc := d, value := none }) := rfl
@[simp] theorem Poller.addPoint_sched (p : Poller) (d : PointDesc) :
    (p.addPoint d).sched = p.sched := rfl
@[simp] theorem Poller.addPoint_due (p : Poller) (d : PointDesc) : (p.addPoint d).due = p.due := rfl
@[simp] theorem Poller.addPoint_cursor (p : Poller) (d : PointDesc) :
    (p.addPoint d).cursor = p.cursor := rfl
@[simp] theorem Poller.addPoint_retries (p : Poller) (d : PointDesc) :
    (p.addPoint d).retries = 0 := rfl
@[simp] theorem Poller.addPoint_tickCnt (p : Poller) (d : PointDesc) :
    (p.addPoint d).tickCnt = p.tickCnt := rfl
@[simp] theorem Poller.addPoint_timeoutTicks (p : Poller) (d : PointDesc) :
    (p.addPoint d).timeoutTicks = p.timeoutTicks := rfl
@[simp] theorem Poller.addPoint_rxBuf (p : Poller) (d : PointDesc) :
    (p.addPoint d).rxBuf = p.rxBuf := rfl
@[simp] theorem Poller.addPoint_rxCount (p : Poller) (d : PointDesc) :
    (p.addPoint d).rxCount = p.rxCount := rfl
@[simp] theorem Poller.addPoint_frameArrived (p : Poller) (d : PointDesc) :
    (p.addPoint d).frameArrived = p.frameArrived := rfl

/-! `Poller.setSchedule` -/

@[simp] theorem Poller.setSchedule_state (p : Poller) (sch : List SchedEntry) :
    (p.setSchedule sch).state = p.state := rfl
@[simp] theorem Poller.setSchedule_brd (p : Poller) (sch : List SchedEntry) :
    (p.setSchedule sch).brd = p.brd := rfl
@[simp] theorem Poller.setSchedule_ptCount (p : Poller) (sch : List SchedEntry) :
    (p.setSchedule sch).ptCount = p.ptCount := rfl
@[simp] theorem Poller.setSchedule_ptTable (p : Poller) (sch : List SchedEntry) :
    (p.setSchedule sch).ptTable = p.ptTable := rfl
@[simp] theorem Poller.setSchedule_sched (p : Poller) (sch : List SchedEntry) :
    (p.setSchedule sch).sched = sch := rfl
@[simp] theorem Poller.setSchedule_due (p : Poller) (sch : List SchedEntry) :
    (p.setSchedule sch).due = [] := rfl
@[simp] theorem Poller.setSchedule_cursor (p : Poller) (sch : List SchedEntry) :
    (p.setSchedule sch).cursor = 0 := rfl
@[simp] theorem Poller.setSchedule_retries (p : Poller) (sch : List SchedEntry) :
    (p.setSchedule sch).retries = 0 := rfl
@[simp] theorem Poller.setSchedule_tickCnt (p : Poller) (sch : List SchedEntry) :
    (p.setSchedule sch).tickCnt = p.tickCnt := rfl
@[simp] theorem Poller.setSchedule_timeoutTicks (p : Poller) (sch : List SchedEntry) :
    (p.setSchedule sch).timeoutTicks = p.timeoutTicks := rfl
@[simp] theorem Poller.setSchedule_rxBuf (p : Poller) (sch : List SchedEntry) :
    (p.setSchedule sch).rxBuf = p.rxBuf := rfl
@[simp] theorem Poller.setSchedule_rxCount (p : Poller) (sch : List SchedEntry) :
    (p.setSchedule sch).rxCount = p.rxCount := rfl
@[simp] theorem Poller.setSchedule_frameArrived (p : Poller) (sch : List SchedEntry) :
    (p.setSchedule sch).frameArrived = p.frameArrived := rfl

/-! `Poller.setDue` -/

@[simp] theorem Poller.setDue_state (p : Poller) (sch : List SchedEntry) (due : List (BitVec 8)) :
    (p.setDue sch due).state = p.state := rfl
@[simp] theorem Poller.setDue_brd (p : Poller) (sch : List SchedEntry) (due : List (BitVec 8)) :
    (p.setDue sch due).brd = p.brd := rfl
@[simp] theorem Poller.setDue_ptCount (p : Poller) (sch : List SchedEntry) (due : List (BitVec 8)) :
    (p.setDue sch due).ptCount = p.ptCount := rfl
@[simp] theorem Poller.setDue_ptTable (p : Poller) (sch : List SchedEntry) (due : List (BitVec 8)) :
    (p.setDue sch due).ptTable = p.ptTable := rfl
@[simp] theorem Poller.setDue_sched (p : Poller) (sch : List SchedEntry) (due : List (BitVec 8)) :
    (p.setDue sch due).sched = sch := rfl
@[simp] theorem Poller.setDue_due (p : Poller) (sch : List SchedEntry) (due : List (BitVec 8)) :
    (p.setDue sch due).due = due := rfl
@[simp] theorem Poller.setDue_cursor (p : Poller) (sch : List SchedEntry) (due : List (BitVec 8)) :
    (p.setDue sch due).cursor = p.cursor := rfl
@[simp] theorem Poller.setDue_retries (p : Poller) (sch : List SchedEntry) (due : List (BitVec 8)) :
    (p.setDue sch due).retries = p.retries := rfl
@[simp] theorem Poller.setDue_tickCnt (p : Poller) (sch : List SchedEntry) (due : List (BitVec 8)) :
    (p.setDue sch due).tickCnt = p.tickCnt := rfl
@[simp] theorem Poller.setDue_timeoutTicks (p : Poller) (sch : List SchedEntry) (due : List (BitVec 8)) :
    (p.setDue sch due).timeoutTicks = p.timeoutTicks := rfl
@[simp] theorem Poller.setDue_rxBuf (p : Poller) (sch : List SchedEntry) (due : List (BitVec 8)) :
    (p.setDue sch due).rxBuf = p.rxBuf := rfl
@[simp] theorem Poller.setDue_rxCount (p : Poller) (sch : List SchedEntry) (due : List (BitVec 8)) :
    (p.setDue sch due).rxCount = p.rxCount := rfl
@[simp] theorem Poller.setDue_frameArrived (p : Poller) (sch : List SchedEntry) (due : List (BitVec 8)) :
    (p.setDue sch due).frameArrived = p.frameArrived := rfl

/-! `Poller.startRound` -/

@[simp] theorem Poller.startRound_state (p : Poller) : (p.startRound).state = p.state := rfl
@[simp] theorem Poller.startRound_brd (p : Poller) : (p.startRound).brd = p.brd := rfl
@[simp] theorem Poller.startRound_ptCount (p : Poller) : (p.startRound).ptCount = p.ptCount := rfl
@[simp] theorem Poller.startRound_ptTable (p : Poller) : (p.startRound).ptTable = p.ptTable := rfl
@[simp] theorem Poller.startRound_sched (p : Poller) : (p.startRound).sched = p.sched := rfl
@[simp] theorem Poller.startRound_due (p : Poller) : (p.startRound).due = p.due := rfl
@[simp] theorem Poller.startRound_cursor (p : Poller) : (p.startRound).cursor = 0 := rfl
@[simp] theorem Poller.startRound_retries (p : Poller) : (p.startRound).retries = 0 := rfl
@[simp] theorem Poller.startRound_tickCnt (p : Poller) : (p.startRound).tickCnt = p.tickCnt := rfl
@[simp] theorem Poller.startRound_timeoutTicks (p : Poller) :
    (p.startRound).timeoutTicks = p.timeoutTicks := rfl
@[simp] theorem Poller.startRound_rxBuf (p : Poller) : (p.startRound).rxBuf = p.rxBuf := rfl
@[simp] theorem Poller.startRound_rxCount (p : Poller) : (p.startRound).rxCount = p.rxCount := rfl
@[simp] theorem Poller.startRound_frameArrived (p : Poller) :
    (p.startRound).frameArrived = p.frameArrived := rfl

/-! `Poller.setValue` -/

@[simp] theorem Poller.setValue_state (p : Poller) (i : Nat) (x : Value) :
    (p.setValue i x).state = p.state := rfl
@[simp] theorem Poller.setValue_brd (p : Poller) (i : Nat) (x : Value) :
    (p.setValue i x).brd = p.brd := rfl
@[simp] theorem Poller.setValue_ptCount (p : Poller) (i : Nat) (x : Value) :
    (p.setValue i x).ptCount = p.ptCount := rfl
@[simp] theorem Poller.setValue_sched (p : Poller) (i : Nat) (x : Value) :
    (p.setValue i x).sched = p.sched := rfl
@[simp] theorem Poller.setValue_due (p : Poller) (i : Nat) (x : Value) :
    (p.setValue i x).due = p.due := rfl
@[simp] theorem Poller.setValue_cursor (p : Poller) (i : Nat) (x : Value) :
    (p.setValue i x).cursor = p.cursor := rfl
@[simp] theorem Poller.setValue_retries (p : Poller) (i : Nat) (x : Value) :
    (p.setValue i x).retries = p.retries := rfl
@[simp] theorem Poller.setValue_tickCnt (p : Poller) (i : Nat) (x : Value) :
    (p.setValue i x).tickCnt = p.tickCnt := rfl
@[simp] theorem Poller.setValue_timeoutTicks (p : Poller) (i : Nat) (x : Value) :
    (p.setValue i x).timeoutTicks = p.timeoutTicks := rfl
@[simp] theorem Poller.setValue_rxBuf (p : Poller) (i : Nat) (x : Value) :
    (p.setValue i x).rxBuf = p.rxBuf := rfl
@[simp] theorem Poller.setValue_rxCount (p : Poller) (i : Nat) (x : Value) :
    (p.setValue i x).rxCount = p.rxCount := rfl
@[simp] theorem Poller.setValue_frameArrived (p : Poller) (i : Nat) (x : Value) :
    (p.setValue i x).frameArrived = p.frameArrived := rfl

/-! `Poller.advance` -/

@[simp] theorem Poller.advance_state (p : Poller) : (p.advance).state = p.state := rfl
@[simp] theorem Poller.advance_brd (p : Poller) : (p.advance).brd = p.brd := rfl
@[simp] theorem Poller.advance_ptCount (p : Poller) : (p.advance).ptCount = p.ptCount := rfl
@[simp] theorem Poller.advance_ptTable (p : Poller) : (p.advance).ptTable = p.ptTable := rfl
@[simp] theorem Poller.advance_sched (p : Poller) : (p.advance).sched = p.sched := rfl
@[simp] theorem Poller.advance_due (p : Poller) : (p.advance).due = p.due := rfl
@[simp] theorem Poller.advance_cursor (p : Poller) : (p.advance).cursor = p.cursor + 1 := rfl
@[simp] theorem Poller.advance_retries (p : Poller) : (p.advance).retries = p.retries := rfl
@[simp] theorem Poller.advance_tickCnt (p : Poller) : (p.advance).tickCnt = p.tickCnt := rfl
@[simp] theorem Poller.advance_timeoutTicks (p : Poller) :
    (p.advance).timeoutTicks = p.timeoutTicks := rfl
@[simp] theorem Poller.advance_rxBuf (p : Poller) : (p.advance).rxBuf = p.rxBuf := rfl
@[simp] theorem Poller.advance_rxCount (p : Poller) : (p.advance).rxCount = p.rxCount := rfl
@[simp] theorem Poller.advance_frameArrived (p : Poller) :
    (p.advance).frameArrived = p.frameArrived := rfl

/-! `Poller.clearRetries` -/

@[simp] theorem Poller.clearRetries_state (p : Poller) : (p.clearRetries).state = p.state := rfl
@[simp] theorem Poller.clearRetries_brd (p : Poller) : (p.clearRetries).brd = p.brd := rfl
@[simp] theorem Poller.clearRetries_ptCount (p : Poller) :
    (p.clearRetries).ptCount = p.ptCount := rfl
@[simp] theorem Poller.clearRetries_ptTable (p : Poller) :
    (p.clearRetries).ptTable = p.ptTable := rfl
@[simp] theorem Poller.clearRetries_sched (p : Poller) : (p.clearRetries).sched = p.sched := rfl
@[simp] theorem Poller.clearRetries_due (p : Poller) : (p.clearRetries).due = p.due := rfl
@[simp] theorem Poller.clearRetries_cursor (p : Poller) : (p.clearRetries).cursor = p.cursor := rfl
@[simp] theorem Poller.clearRetries_retries (p : Poller) : (p.clearRetries).retries = 0 := rfl
@[simp] theorem Poller.clearRetries_tickCnt (p : Poller) :
    (p.clearRetries).tickCnt = p.tickCnt := rfl
@[simp] theorem Poller.clearRetries_timeoutTicks (p : Poller) :
    (p.clearRetries).timeoutTicks = p.timeoutTicks := rfl
@[simp] theorem Poller.clearRetries_rxBuf (p : Poller) : (p.clearRetries).rxBuf = p.rxBuf := rfl
@[simp] theorem Poller.clearRetries_rxCount (p : Poller) :
    (p.clearRetries).rxCount = p.rxCount := rfl
@[simp] theorem Poller.clearRetries_frameArrived (p : Poller) :
    (p.clearRetries).frameArrived = p.frameArrived := rfl

/-! `Poller.push` -/

@[simp] theorem Poller.push_state (p : Poller) (b : Byte) : (p.push b).state = p.state := rfl
@[simp] theorem Poller.push_brd (p : Poller) (b : Byte) : (p.push b).brd = p.brd := rfl
@[simp] theorem Poller.push_ptCount (p : Poller) (b : Byte) : (p.push b).ptCount = p.ptCount := rfl
@[simp] theorem Poller.push_ptTable (p : Poller) (b : Byte) : (p.push b).ptTable = p.ptTable := rfl
@[simp] theorem Poller.push_sched (p : Poller) (b : Byte) : (p.push b).sched = p.sched := rfl
@[simp] theorem Poller.push_due (p : Poller) (b : Byte) : (p.push b).due = p.due := rfl
@[simp] theorem Poller.push_cursor (p : Poller) (b : Byte) : (p.push b).cursor = p.cursor := rfl
@[simp] theorem Poller.push_retries (p : Poller) (b : Byte) : (p.push b).retries = p.retries := rfl
@[simp] theorem Poller.push_tickCnt (p : Poller) (b : Byte) : (p.push b).tickCnt = p.tickCnt := rfl
@[simp] theorem Poller.push_timeoutTicks (p : Poller) (b : Byte) :
    (p.push b).timeoutTicks = p.timeoutTicks := rfl
@[simp] theorem Poller.push_rxBuf (p : Poller) (b : Byte) :
    (p.push b).rxBuf = Memory.write p.rxBuf p.rxCount.toNat b := rfl
@[simp] theorem Poller.push_rxCount (p : Poller) (b : Byte) :
    (p.push b).rxCount = p.rxCount + 1 := rfl
@[simp] theorem Poller.push_frameArrived (p : Poller) (b : Byte) :
    (p.push b).frameArrived = p.frameArrived := rfl

/-! `Poller.flagFrame` -/

@[simp] theorem Poller.flagFrame_state (p : Poller) : (p.flagFrame).state = p.state := rfl
@[simp] theorem Poller.flagFrame_brd (p : Poller) : (p.flagFrame).brd = p.brd := rfl
@[simp] theorem Poller.flagFrame_ptCount (p : Poller) : (p.flagFrame).ptCount = p.ptCount := rfl
@[simp] theorem Poller.flagFrame_ptTable (p : Poller) : (p.flagFrame).ptTable = p.ptTable := rfl
@[simp] theorem Poller.flagFrame_sched (p : Poller) : (p.flagFrame).sched = p.sched := rfl
@[simp] theorem Poller.flagFrame_due (p : Poller) : (p.flagFrame).due = p.due := rfl
@[simp] theorem Poller.flagFrame_cursor (p : Poller) : (p.flagFrame).cursor = p.cursor := rfl
@[simp] theorem Poller.flagFrame_retries (p : Poller) : (p.flagFrame).retries = p.retries := rfl
@[simp] theorem Poller.flagFrame_tickCnt (p : Poller) : (p.flagFrame).tickCnt = p.tickCnt := rfl
@[simp] theorem Poller.flagFrame_timeoutTicks (p : Poller) :
    (p.flagFrame).timeoutTicks = p.timeoutTicks := rfl
@[simp] theorem Poller.flagFrame_rxBuf (p : Poller) : (p.flagFrame).rxBuf = p.rxBuf := rfl
@[simp] theorem Poller.flagFrame_rxCount (p : Poller) : (p.flagFrame).rxCount = p.rxCount := rfl
@[simp] theorem Poller.flagFrame_frameArrived (p : Poller) :
    (p.flagFrame).frameArrived = true := rfl

/-! `Responder.push` -/

@[simp] theorem Responder.push_brdStatus (r : Responder) (b : Byte) :
    (r.push b).brdStatus = r.brdStatus := rfl
@[simp] theorem Responder.push_batStatus (r : Responder) (b : Byte) :
    (r.push b).batStatus = r.batStatus := rfl
@[simp] theorem Responder.push_batCharge (r : Responder) (b : Byte) :
    (r.push b).batCharge = r.batCharge := rfl
@[simp] theorem Responder.push_svrMain (r : Responder) (b : Byte) :
    (r.push b).svrMain = r.svrMain := rfl
@[simp] theorem Responder.push_svrSec (r : Responder) (b : Byte) :
    (r.push b).svrSec = r.svrSec := rfl
@[simp] theorem Responder.push_ptDb (r : Responder) (b : Byte) : (r.push b).ptDb = r.ptDb := rfl
@[simp] theorem Responder.push_srxBuf (r : Responder) (b : Byte) :
    (r.push b).srxBuf = Memory.write r.srxBuf r.srxCount.toNat b := rfl
@[simp] theorem Responder.push_srxCount (r : Responder) (b : Byte) :
    (r.push b).srxCount = r.srxCount + 1 := rfl

/-! `Responder.consume` -/

@[simp] theorem Responder.consume_brdStatus (r : Responder) :
    (r.consume).brdStatus = r.brdStatus := rfl
@[simp] theorem Responder.consume_batStatus (r : Responder) :
    (r.consume).batStatus = r.batStatus := rfl
@[simp] theorem Responder.consume_batCharge (r : Responder) :
    (r.consume).batCharge = r.batCharge := rfl
@[simp] theorem Responder.consume_svrMain (r : Responder) : (r.consume).svrMain = r.svrMain := rfl
@[simp] theorem Responder.consume_svrSec (r : Responder) : (r.consume).svrSec = r.svrSec := rfl
@[simp] theorem Responder.consume_ptDb (r : Responder) : (r.consume).ptDb = r.ptDb := rfl
@[simp] theorem Responder.consume_srxBuf (r : Responder) : (r.consume).srxBuf = r.srxBuf := rfl
@[simp] theorem Responder.consume_srxCount (r : Responder) : (r.consume).srxCount = 0 := rfl

/-! `Responder.setValue` -/

@[simp] theorem Responder.setValue_brdStatus (r : Responder) (i : Nat) (x : Value) :
    (r.setValue i x).brdStatus = r.brdStatus := rfl
@[simp] theorem Responder.setValue_batStatus (r : Responder) (i : Nat) (x : Value) :
    (r.setValue i x).batStatus = r.batStatus := rfl
@[simp] theorem Responder.setValue_batCharge (r : Responder) (i : Nat) (x : Value) :
    (r.setValue i x).batCharge = r.batCharge := rfl
@[simp] theorem Responder.setValue_svrMain (r : Responder) (i : Nat) (x : Value) :
    (r.setValue i x).svrMain = r.svrMain := rfl
@[simp] theorem Responder.setValue_svrSec (r : Responder) (i : Nat) (x : Value) :
    (r.setValue i x).svrSec = r.svrSec := rfl
@[simp] theorem Responder.setValue_ptDb (r : Responder) (i : Nat) (x : Value) :
    (r.setValue i x).ptDb = r.ptDb.modify i fun e => { e with value := x } := rfl
@[simp] theorem Responder.setValue_srxBuf (r : Responder) (i : Nat) (x : Value) :
    (r.setValue i x).srxBuf = r.srxBuf := rfl
@[simp] theorem Responder.setValue_srxCount (r : Responder) (i : Nat) (x : Value) :
    (r.setValue i x).srxCount = r.srxCount := rfl

/-! `State.withPoller` -/

@[simp] theorem State.withPoller_cfg (s : State) (p : Poller) : (s.withPoller p).cfg = s.cfg := rfl
@[simp] theorem State.withPoller_poller (s : State) (p : Poller) :
    (s.withPoller p).poller = p := rfl
@[simp] theorem State.withPoller_responder (s : State) (p : Poller) :
    (s.withPoller p).responder = s.responder := rfl
@[simp] theorem State.withPoller_crc (s : State) (p : Poller) : (s.withPoller p).crc = s.crc := rfl
@[simp] theorem State.withPoller_crcSeq (s : State) (p : Poller) :
    (s.withPoller p).crcSeq = s.crcSeq := rfl
@[simp] theorem State.withPoller_freeSeq (s : State) (p : Poller) :
    (s.withPoller p).freeSeq = s.freeSeq := rfl
@[simp] theorem State.withPoller_events (s : State) (p : Poller) :
    (s.withPoller p).events = s.events := rfl
@[simp] theorem State.withPoller_pTx (s : State) (p : Poller) : (s.withPoller p).pTx = s.pTx := rfl
@[simp] theorem State.withPoller_rTx (s : State) (p : Poller) : (s.withPoller p).rTx = s.rTx := rfl

/-! `State.withResponder` -/

@[simp] theorem State.withResponder_cfg (s : State) (r : Responder) :
    (s.withResponder r).cfg = s.cfg := rfl
@[simp] theorem State.withResponder_poller (s : State) (r : Responder) :
    (s.withResponder r).poller = s.poller := rfl
@[simp] theorem State.withResponder_responder (s : State) (r : Responder) :
    (s.withResponder r).responder = r := rfl
@[simp] theorem State.withResponder_crc (s : State) (r : Responder) :
    (s.withResponder r).crc = s.crc := rfl
@[simp] theorem State.withResponder_crcSeq (s : State) (r : Responder) :
    (s.withResponder r).crcSeq = s.crcSeq := rfl
@[simp] theorem State.withResponder_freeSeq (s : State) (r : Responder) :
    (s.withResponder r).freeSeq = s.freeSeq := rfl
@[simp] theorem State.withResponder_events (s : State) (r : Responder) :
    (s.withResponder r).events = s.events := rfl
@[simp] theorem State.withResponder_pTx (s : State) (r : Responder) :
    (s.withResponder r).pTx = s.pTx := rfl
@[simp] theorem State.withResponder_rTx (s : State) (r : Responder) :
    (s.withResponder r).rTx = s.rTx := rfl

/-! `State.withEvents` -/

@[simp] theorem State.withEvents_cfg (s : State) (es : List Event) :
    (s.withEvents es).cfg = s.cfg := rfl
@[simp] theorem State.withEvents_poller (s : State) (es : List Event) :
    (s.withEvents es).poller = s.poller := rfl
@[simp] theorem State.withEvents_responder (s : State) (es : List Event) :
    (s.withEvents es).responder = s.responder := rfl
@[simp] theorem State.withEvents_crc (s : State) (es : List Event) :
    (s.withEvents es).crc = s.crc := rfl
@[simp] theorem State.withEvents_crcSeq (s : State) (es : List Event) :
    (s.withEvents es).crcSeq = s.crcSeq := rfl
@[simp] theorem State.withEvents_freeSeq (s : State) (es : List Event) :
    (s.withEvents es).freeSeq = s.freeSeq := rfl
@[simp] theorem State.withEvents_events (s : State) (es : List Event) :
    (s.withEvents es).events = es := rfl
@[simp] theorem State.withEvents_pTx (s : State) (es : List Event) :
    (s.withEvents es).pTx = s.pTx := rfl
@[simp] theorem State.withEvents_rTx (s : State) (es : List Event) :
    (s.withEvents es).rTx = s.rTx := rfl

/-! `State.emitP` -/

@[simp] theorem State.emitP_cfg (s : State) (f : Frame) : (s.emitP f).cfg = s.cfg := rfl
@[simp] theorem State.emitP_poller (s : State) (f : Frame) : (s.emitP f).poller = s.poller := rfl
@[simp] theorem State.emitP_responder (s : State) (f : Frame) :
    (s.emitP f).responder = s.responder := rfl
@[simp] theorem State.emitP_crc (s : State) (f : Frame) : (s.emitP f).crc = s.crc := rfl
@[simp] theorem State.emitP_crcSeq (s : State) (f : Frame) : (s.emitP f).crcSeq = s.crcSeq := rfl
@[simp] theorem State.emitP_freeSeq (s : State) (f : Frame) : (s.emitP f).freeSeq = s.freeSeq := rfl
@[simp] theorem State.emitP_events (s : State) (f : Frame) : (s.emitP f).events = s.events := rfl
@[simp] theorem State.emitP_pTx (s : State) (f : Frame) : (s.emitP f).pTx = s.pTx ++ [f] := rfl
@[simp] theorem State.emitP_rTx (s : State) (f : Frame) : (s.emitP f).rTx = s.rTx := rfl

/-! `State.emitR` -/

@[simp] theorem State.emitR_cfg (s : State) (f : Frame) : (s.emitR f).cfg = s.cfg := rfl
@[simp] theorem State.emitR_poller (s : State) (f : Frame) : (s.emitR f).poller = s.poller := rfl
@[simp] theorem State.emitR_responder (s : State) (f : Frame) :
    (s.emitR f).responder = s.responder := rfl
@[simp] theorem State.emitR_crc (s : State) (f : Frame) : (s.emitR f).crc = s.crc := rfl
@[simp] theorem State.emitR_crcSeq (s : State) (f : Frame) : (s.emitR f).crcSeq = s.crcSeq := rfl
@[simp] theorem State.emitR_freeSeq (s : State) (f : Frame) : (s.emitR f).freeSeq = s.freeSeq := rfl
@[simp] theorem State.emitR_events (s : State) (f : Frame) : (s.emitR f).events = s.events := rfl
@[simp] theorem State.emitR_pTx (s : State) (f : Frame) : (s.emitR f).pTx = s.pTx := rfl
@[simp] theorem State.emitR_rTx (s : State) (f : Frame) : (s.emitR f).rTx = s.rTx ++ [f] := rfl

/-! `State.crcIdle` -/

@[simp] theorem State.crcIdle_cfg (s : State) : (s.crcIdle).cfg = s.cfg := rfl
@[simp] theorem State.crcIdle_poller (s : State) : (s.crcIdle).poller = s.poller := rfl
@[simp] theorem State.crcIdle_responder (s : State) : (s.crcIdle).responder = s.responder := rfl
@[simp] theorem State.crcIdle_crc (s : State) :
    (s.crcIdle).crc = Config.crcBetweenFrames s.crcSeq := rfl
@[simp] theorem State.crcIdle_crcSeq (s : State) : (s.crcIdle).crcSeq = s.crcSeq + 1 := rfl
@[simp] theorem State.crcIdle_freeSeq (s : State) : (s.crcIdle).freeSeq = s.freeSeq := rfl
@[simp] theorem State.crcIdle_events (s : State) : (s.crcIdle).events = s.events := rfl
@[simp] theorem State.crcIdle_pTx (s : State) : (s.crcIdle).pTx = s.pTx := rfl
@[simp] theorem State.crcIdle_rTx (s : State) : (s.crcIdle).rTx = s.rTx := rfl

/-! `State.nextFree` -/

@[simp] theorem State.nextFree_cfg (s : State) : s.nextFree.cfg = s.cfg := rfl
@[simp] theorem State.nextFree_poller (s : State) : s.nextFree.poller = s.poller := rfl
@[simp] theorem State.nextFree_responder (s : State) : s.nextFree.responder = s.responder := rfl
@[simp] theorem State.nextFree_crc (s : State) : s.nextFree.crc = s.crc := rfl
@[simp] theorem State.nextFree_crcSeq (s : State) : s.nextFree.crcSeq = s.crcSeq := rfl
@[simp] theorem State.nextFree_events (s : State) : s.nextFree.events = s.events := rfl
@[simp] theorem State.nextFree_pTx (s : State) : s.nextFree.pTx = s.pTx := rfl
@[simp] theorem State.nextFree_rTx (s : State) : s.nextFree.rTx = s.rTx := rfl
@[simp] theorem State.nextFree_freeSeq (s : State) : s.nextFree.freeSeq = s.freeSeq + 1 := rfl

/-! Reads that may find no value -/

@[simp] theorem State.numOfPoints_some {s : State} {b : BoardId} (h : s.poller.brd = some b) :
    s.numOfPoints = b.numOfPoints := by simp [State.numOfPoints, h]
@[simp] theorem State.numOfPoints_none {s : State} (h : s.poller.brd = none) :
    s.numOfPoints = Config.unknownNumOfPoints s.freeSeq := by simp [State.numOfPoints, h]
@[simp] theorem State.descAt_some {s : State} {i : Nat} {e : PointEntry}
    (h : s.poller.ptTable[i]? = some (some e)) : s.descAt i = e.desc := by simp [State.descAt, h]
@[simp] theorem State.dueIndex_some {s : State} {i : BitVec 8}
    (h : s.poller.due[s.poller.cursor.toNat]? = some i) : s.dueIndex = i := by
  simp [State.dueIndex, h]
@[simp] theorem State.dueIndex_none {s : State} (h : s.poller.due[s.poller.cursor.toNat]? = none) :
    s.dueIndex = Config.unknownDueIndex s.freeSeq := by simp [State.dueIndex, h]
@[simp] theorem State.descIn_desc (s : State) (d : PointDesc) : s.descIn (.desc d) = d := rfl
@[simp] theorem State.valueIn_value (s : State) (x : Value) : s.valueIn (.value x) = x := rfl

/-- A response of another shape has no descriptor: the one read is free. -/
theorem State.descIn_of_ne {s : State} {f : RspFields} (h : ∀ d, f ≠ .desc d) :
    s.descIn f = Config.unknownDesc s.freeSeq s.poller.ptCount.toNat := by
  cases f <;> first | rfl | exact absurd rfl (h _)

/-- A response of another shape has no value: the one read is free. -/
theorem State.valueIn_of_ne {s : State} {f : RspFields} (h : ∀ x, f ≠ .value x) :
    s.valueIn f = Config.unknownValue s.freeSeq := by
  cases f <;> first | rfl | exact absurd rfl (h _)

@[simp] theorem State.crcIdle_dueIndex (s : State) : s.crcIdle.dueIndex = s.dueIndex := rfl
@[simp] theorem State.crcIdle_descIn (s : State) (f : RspFields) : s.crcIdle.descIn f = s.descIn f := by
  cases f <;> rfl
@[simp] theorem State.crcIdle_valueIn (s : State) (f : RspFields) :
    s.crcIdle.valueIn f = s.valueIn f := by cases f <;> rfl

/-! `State.send` -/

@[simp] theorem State.send_cfg (s : State) (a : Byte) : (s.send a).cfg = s.cfg := rfl
@[simp] theorem State.send_poller (s : State) (a : Byte) :
    (s.send a).poller = s.poller.arm (BitVec.ofNat 32 s.cfg.timeoutTicks) := rfl
@[simp] theorem State.send_responder (s : State) (a : Byte) :
    (s.send a).responder = s.responder := rfl
@[simp] theorem State.send_crc (s : State) (a : Byte) :
    (s.send a).crc = Config.crcBetweenFrames s.crcSeq := rfl
@[simp] theorem State.send_crcSeq (s : State) (a : Byte) : (s.send a).crcSeq = s.crcSeq + 1 := rfl
@[simp] theorem State.send_freeSeq (s : State) (a : Byte) : (s.send a).freeSeq = s.freeSeq := rfl
@[simp] theorem State.send_events (s : State) (a : Byte) : (s.send a).events = s.events := rfl
@[simp] theorem State.send_pTx (s : State) (a : Byte) :
    (s.send a).pTx = s.pTx ++ [packRequest s.cfg.crc a []] := rfl
@[simp] theorem State.send_rTx (s : State) (a : Byte) : (s.send a).rTx = s.rTx := rfl

/-! `State.respond` -/

@[simp] theorem State.respond_cfg (s : State) (a : Byte) (r : Except DispatchError RspFields) :
    (s.respond a r).cfg = s.cfg := rfl
@[simp] theorem State.respond_poller (s : State) (a : Byte) (r : Except DispatchError RspFields) :
    (s.respond a r).poller = s.poller := rfl
@[simp] theorem State.respond_responder (s : State) (a : Byte) (r : Except DispatchError RspFields) :
    (s.respond a r).responder = s.responder := rfl
@[simp] theorem State.respond_crc (s : State) (a : Byte) (r : Except DispatchError RspFields) :
    (s.respond a r).crc = Config.crcBetweenFrames s.crcSeq := rfl
@[simp] theorem State.respond_crcSeq (s : State) (a : Byte) (r : Except DispatchError RspFields) :
    (s.respond a r).crcSeq = s.crcSeq + 1 := rfl
@[simp] theorem State.respond_freeSeq (s : State) (a : Byte) (r : Except DispatchError RspFields) :
    (s.respond a r).freeSeq = s.freeSeq := rfl
@[simp] theorem State.respond_events (s : State) (a : Byte) (r : Except DispatchError RspFields) :
    (s.respond a r).events = s.events := rfl
@[simp] theorem State.respond_pTx (s : State) (a : Byte) (r : Except DispatchError RspFields) :
    (s.respond a r).pTx = s.pTx := rfl
@[simp] theorem State.respond_rTx (s : State) (a : Byte) (r : Except DispatchError RspFields) :
    (s.respond a r).rTx = s.rTx ++ [replyFrame s.cfg.toProtocol a r] := rfl

/-! `State.consumed` -/

@[simp] theorem State.consumed_cfg (s : State) : (s.consumed).cfg = s.cfg := rfl
@[simp] theorem State.consumed_poller (s : State) : (s.consumed).poller = s.poller := rfl
@[simp] theorem State.consumed_responder (s : State) :
    (s.consumed).responder = s.responder.consume := rfl
@[simp] theorem State.consumed_crc (s : State) :
    (s.consumed).crc = Config.crcBetweenFrames s.crcSeq := rfl
@[simp] theorem State.consumed_crcSeq (s : State) : (s.consumed).crcSeq = s.crcSeq + 1 := rfl
@[simp] theorem State.consumed_freeSeq (s : State) : (s.consumed).freeSeq = s.freeSeq := rfl
@[simp] theorem State.consumed_events (s : State) : (s.consumed).events = s.events := rfl
@[simp] theorem State.consumed_pTx (s : State) : (s.consumed).pTx = s.pTx := rfl
@[simp] theorem State.consumed_rTx (s : State) : (s.consumed).rTx = s.rTx := rfl

/-! `State.notImplemented` -/

@[simp] theorem State.notImplemented_cfg (s : State) (a : Byte) :
    (s.notImplemented a).cfg = s.cfg := rfl
@[simp] theorem State.notImplemented_poller (s : State) (a : Byte) :
    (s.notImplemented a).poller = s.poller := rfl
@[simp] theorem State.notImplemented_responder (s : State) (a : Byte) :
    (s.notImplemented a).responder = s.responder := rfl
@[simp] theorem State.notImplemented_crc (s : State) (a : Byte) :
    (s.notImplemented a).crc = Config.crcBetweenFrames s.crcSeq := rfl
@[simp] theorem State.notImplemented_crcSeq (s : State) (a : Byte) :
    (s.notImplemented a).crcSeq = s.crcSeq + 1 := rfl
@[simp] theorem State.notImplemented_freeSeq (s : State) (a : Byte) :
    (s.notImplemented a).freeSeq = s.freeSeq := rfl
@[simp] theorem State.notImplemented_events (s : State) (a : Byte) :
    (s.notImplemented a).events = s.events := rfl
@[simp] theorem State.notImplemented_pTx (s : State) (a : Byte) :
    (s.notImplemented a).pTx = s.pTx := rfl
@[simp] theorem State.notImplemented_rTx (s : State) (a : Byte) :
    (s.notImplemented a).rTx =
      s.rTx ++ [replyFrame s.cfg.toProtocol a (.error .registerNotImplemented)] := rfl

/-! `State.acceptWrite` -/

@[simp] theorem State.acceptWrite_cfg (s : State) (i : BitVec 8) (x : Value) :
    (s.acceptWrite i x).cfg = s.cfg := rfl
@[simp] theorem State.acceptWrite_poller (s : State) (i : BitVec 8) (x : Value) :
    (s.acceptWrite i x).poller = s.poller := rfl
@[simp] theorem State.acceptWrite_responder (s : State) (i : BitVec 8) (x : Value) :
    (s.acceptWrite i x).responder = s.responder.setValue i.toNat x := rfl
@[simp] theorem State.acceptWrite_crc (s : State) (i : BitVec 8) (x : Value) :
    (s.acceptWrite i x).crc = Config.crcBetweenFrames s.crcSeq := rfl
@[simp] theorem State.acceptWrite_crcSeq (s : State) (i : BitVec 8) (x : Value) :
    (s.acceptWrite i x).crcSeq = s.crcSeq + 1 := rfl
@[simp] theorem State.acceptWrite_freeSeq (s : State) (i : BitVec 8) (x : Value) :
    (s.acceptWrite i x).freeSeq = s.freeSeq := rfl
@[simp] theorem State.acceptWrite_events (s : State) (i : BitVec 8) (x : Value) :
    (s.acceptWrite i x).events = s.events := rfl
@[simp] theorem State.acceptWrite_pTx (s : State) (i : BitVec 8) (x : Value) :
    (s.acceptWrite i x).pTx = s.pTx := rfl
@[simp] theorem State.acceptWrite_rTx (s : State) (i : BitVec 8) (x : Value) :
    (s.acceptWrite i x).rTx = s.rTx ++ [replyFrame s.cfg.toProtocol
      (pointAddr s.cfg.addrs.writePointDataBase i) (.ok .none)] := rfl

/-! `State.takeError` -/

@[simp] theorem State.takeError_cfg (s : State) (c : BitVec 4) : (s.takeError c).cfg = s.cfg := rfl
@[simp] theorem State.takeError_poller (s : State) (c : BitVec 4) :
    (s.takeError c).poller = s.poller.goto c := rfl
@[simp] theorem State.takeError_responder (s : State) (c : BitVec 4) :
    (s.takeError c).responder = s.responder := rfl
@[simp] theorem State.takeError_crc (s : State) (c : BitVec 4) : (s.takeError c).crc = s.crc := rfl
@[simp] theorem State.takeError_crcSeq (s : State) (c : BitVec 4) :
    (s.takeError c).crcSeq = s.crcSeq := rfl
@[simp] theorem State.takeError_freeSeq (s : State) (c : BitVec 4) :
    (s.takeError c).freeSeq = s.freeSeq := rfl
@[simp] theorem State.takeError_events (s : State) (c : BitVec 4) :
    (s.takeError c).events = s.events := rfl
@[simp] theorem State.takeError_pTx (s : State) (c : BitVec 4) : (s.takeError c).pTx = s.pTx := rfl
@[simp] theorem State.takeError_rTx (s : State) (c : BitVec 4) : (s.takeError c).rTx = s.rTx := rfl

/-! `Poller.setValue` on its table -/

/-- Storing a value changes the point table at its index only. -/
theorem Poller.setValue_ptTable_of_ne (p : Poller) (i : Nat) (x : Value) (k : Nat) (h : k ≠ i) :
    (p.setValue i x).ptTable[k]? = p.ptTable[k]? := by
  unfold Poller.setValue
  split
  · simp [Ne.symm h]
  · rfl

/-- Storing a value at a discovered point keeps its descriptor. -/
theorem Poller.setValue_ptTable_self (p : Poller) (i : Nat) (x : Value) (e : PointEntry)
    (h : p.ptTable[i]? = some (some e)) :
    (p.setValue i x).ptTable[i]? = some (some { e with value := some x }) := by
  have hi : i < p.ptTable.length := (List.getElem?_eq_some_iff.1 h).1
  simp only [Poller.setValue, h]
  simp [hi]

/-- Storing a value keeps the size of the point table. -/
@[simp] theorem Poller.length_setValue_ptTable (p : Poller) (i : Nat) (x : Value) :
    (p.setValue i x).ptTable.length = p.ptTable.length := by
  unfold Poller.setValue
  split <;> simp

end Sys2Proof.Machine
end

