-- ==== Sys2Proof/Laws/Ops.lean ====
section
/-!
SUPPORT. One lemma per shared operation that says once everything it can do: the driver, `WAIT_ANS`, the
counted transmission, the answer of a `PROC_*` state, the dispatcher's stage 1, and each input event.
-/

namespace Sys2Proof.Machine

/-! ### Transmitting -/

theorem State.send_eq (s : State) (a : Byte) :
    (s.send a).poller = s.poller.arm (BitVec.ofNat 32 s.cfg.timeoutTicks) ∧
      (s.send a).responder = s.responder ∧ (s.send a).cfg = s.cfg ∧
      (s.send a).events = s.events ∧ (s.send a).rTx = s.rTx ∧
      (s.send a).pTx = s.pTx ++ [packRequest s.cfg.crc a []] := ⟨rfl, rfl, rfl, rfl, rfl, rfl⟩

/-- Everything a response changes: one frame on the responder's link, and the CRC register. -/
theorem State.respond_eq (s : State) (a : Byte) (r : Except DispatchError RspFields) :
    Answered s (s.respond a r) (replyFrame s.cfg.toProtocol a r) := ⟨rfl, rfl, rfl, rfl, rfl, rfl⟩

/-! ### The driver -/

/-- Everything the driver can do when it completes: it writes the state register, along the row of its
state (43_poller_fsm.md R270). -/
theorem drive_next {f : FsmState} {h : Handled} {t : State} (ht : drive f h = .next t) :
    ∃ g : FsmState, t = h.state.withPoller (h.state.poller.goto g.code) ∧
      match h.result with
      | .ok | .waitStop => (fsmRow f).next = .used g
      | .waitOk => g = f
      | .waitAbort => (fsmRow f).abort = .used g
      | .error => g = (fsmRow f).error := by
  unfold drive State.follow State.takeError at ht
  cases hr : h.result <;> simp only [hr] at ht
  all_goals first
    | exact ⟨_, by injection ht with ht; exact ht.symm, rfl⟩
    | (split at ht
       · exact ⟨_, by injection ht with ht; exact ht.symm, by assumption⟩
       · cases ht)

/-- The driver stops only at an unused entry of the table (43_poller_fsm.md R273). -/
theorem drive_stops {f : FsmState} {h : Handled} :
    (∃ t, drive f h = .next t) ∨ drive f h = .fault .unusedTransition := by
  unfold drive State.follow
  cases h.result <;> simp only <;> first
    | exact .inl ⟨_, rfl⟩
    | (split
       · exact .inl ⟨_, rfl⟩
       · exact .inr rfl)

theorem driveOrFault_next {f : FsmState} {h : Except Fault Handled} {t : State}
    (ht : driveOrFault f h = .next t) : ∃ h', h = .ok h' ∧ drive f h' = .next t := by
  cases h with
  | ok h' => exact ⟨h', rfl, ht⟩
  | error e => cases ht

/-! ### Handlers -/

/-- Everything `WAIT_ANS` can do (43_poller_fsm.md R276). -/
theorem waitAns_cases (s : State) :
    (s.poller.frameArrived = true ∧ waitAns s = ⟨s, .waitStop, none⟩) ∨
      (s.poller.frameArrived = false ∧
        ((s.poller.tickCnt + 1 ≤ s.poller.timeoutTicks ∧
            waitAns s = ⟨s.withPoller s.poller.countTick, .waitOk, none⟩) ∨
          (s.poller.timeoutTicks < s.poller.tickCnt + 1 ∧ s.poller.rxCount ≠ 0 ∧
            waitAns s = ⟨s.withPoller s.poller.countTick, .waitStop, none⟩) ∨
          (s.poller.timeoutTicks < s.poller.tickCnt + 1 ∧ s.poller.rxCount = 0 ∧
            waitAns s = ⟨s.withPoller s.poller.countTick, .waitAbort, some .protocolTimeout⟩))) := by
  unfold waitAns
  cases hf : s.poller.frameArrived
  · right
    refine ⟨rfl, ?_⟩
    simp only [Bool.false_eq_true, if_false]
    split
    · split
      · exact .inr (.inl ⟨by assumption, by assumption, rfl⟩)
      · exact .inr (.inr ⟨by assumption, not_not.1 (by assumption), rfl⟩)
    · exact .inl ⟨BitVec.not_lt.1 (by assumption), rfl⟩
  · exact .inl ⟨rfl, rfl⟩

/-- Everything a counted transmission can do (43_poller_fsm.md R292, R306). -/
theorem countedSend_cases (s : State) (a : Byte) :
    (s.cfg.maxRetries < (s.poller.retries + 1).toNat ∧ countedSend s a =
        ⟨s.withPoller s.poller.countRetry, .error, some .retryExhausted⟩) ∨
      ((s.poller.retries + 1).toNat ≤ s.cfg.maxRetries ∧ countedSend s a =
        ⟨(s.withPoller s.poller.countRetry).send a, .ok, none⟩) := by
  unfold countedSend
  by_cases h : s.cfg.maxRetries < (s.poller.retries + 1).toNat
  · exact .inl ⟨h, if_pos h⟩
  · exact .inr ⟨Nat.not_lt.1 h, if_neg h⟩

/-- A `PROC_*` handler that answers has read the receive buffer (41_codec.md R220). -/
theorem processAnswer_ok {s : State} {j : Except CodecError Response → State → Handled}
    {h : Handled} (hh : processAnswer s j = .ok h) :
    ∃ buf, s.pollerFrame = some buf ∧ j (s.answer buf) s.crcIdle = h := by
  unfold processAnswer at hh
  split at hh
  · cases hh
  · cases hh; exact ⟨_, by assumption, rfl⟩

/-- Everything SEND_PT_DESC can do (43_poller_fsm.md R292): its counted transmission runs after the read of
the point count. -/
theorem handleSendPtDesc_cases (s : State) :
    (s.numOfPoints ≤ s.poller.ptCount ∧ handleSendPtDesc s = .abort s.nextFree) ∨
      (s.poller.ptCount < s.numOfPoints ∧ handleSendPtDesc s =
        countedSend s.nextFree (s.cfg.addrs.pointDescBase + s.poller.ptCount)) := by
  unfold handleSendPtDesc
  split
  · exact .inl ⟨by assumption, rfl⟩
  · exact .inr ⟨BitVec.not_le.1 (by assumption), rfl⟩

/-- Everything PROC_ITF_VER can decide; it writes nothing (43_poller_fsm.md R287). -/
theorem judgeItfVer_cases (r : Except CodecError Response) (s : State) :
    (r = .ok ⟨s.cfg.addrs.itfVersion, s.cfg.status.ok, .version s.cfg.itfVersionSupported⟩ ∧ judgeItfVer r s = .ok s) ∨
      (r ≠ .ok ⟨s.cfg.addrs.itfVersion, s.cfg.status.ok, .version s.cfg.itfVersionSupported⟩ ∧
        ∃ e, judgeItfVer r s = .failed s e) := by
  cases r with
  | error e => exact .inr ⟨by simp, _, rfl⟩
  | ok r =>
    obtain ⟨a, st, f⟩ := r
    unfold judgeItfVer
    by_cases ha : a = s.cfg.addrs.itfVersion
    · by_cases hs : st = s.cfg.status.ok
      · subst ha hs
        cases f
        case version v =>
          by_cases hv : v = s.cfg.itfVersionSupported
          · subst hv; exact .inl ⟨rfl, by simp⟩
          · exact .inr ⟨by simp [hv], _, by simp [hv]; rfl⟩
        all_goals exact .inr ⟨by simp, .badResponse, by simp⟩
      · exact .inr ⟨by simp [hs], .badResponse, by simp [hs]⟩
    · exact .inr ⟨by simp [ha], .badResponse, by simp [ha]⟩

/-- Everything PROC_BRD_ID can decide (43_poller_fsm.md R289). -/
theorem judgeBrdId_cases (r : Except CodecError Response) (s : State) :
    (∃ b, r = .ok ⟨s.cfg.addrs.brdId, s.cfg.status.ok, .board b⟩ ∧ 1 ≤ b.numOfPoints.toNat ∧
        b.numOfPoints.toNat ≤ s.cfg.maxPoints ∧
        judgeBrdId r s = .ok (s.withPoller (s.poller.setBoard b).clearCount)) ∨
      (∃ b, r = .ok ⟨s.cfg.addrs.brdId, s.cfg.status.ok, .board b⟩ ∧
        (b.numOfPoints.toNat = 0 ∨ s.cfg.maxPoints < b.numOfPoints.toNat) ∧
        judgeBrdId r s = .failed (s.withPoller (s.poller.setBoard b)) .invalidPointCount) ∨
      ((∀ b, r ≠ .ok ⟨s.cfg.addrs.brdId, s.cfg.status.ok, .board b⟩) ∧ judgeBrdId r s = .failed s .badResponse) := by
  cases r with
  | error e => exact .inr (.inr ⟨by simp, rfl⟩)
  | ok r =>
    obtain ⟨a, st, f⟩ := r
    unfold judgeBrdId
    by_cases ha : a = s.cfg.addrs.brdId
    · by_cases hs : st = s.cfg.status.ok
      · subst ha hs
        cases f
        case board b =>
          by_cases hb : b.numOfPoints.toNat < 1 ∨ s.cfg.maxPoints < b.numOfPoints.toNat
          · refine .inr (.inl ⟨b, rfl, by omega, ?_⟩)
            exact (if_neg (not_not.2 rfl)).trans ((if_neg (not_not.2 rfl)).trans (if_pos hb))
          · refine .inl ⟨b, rfl, by omega, by omega, ?_⟩
            exact (if_neg (not_not.2 rfl)).trans ((if_neg (not_not.2 rfl)).trans (if_neg hb))
        all_goals exact .inr (.inr ⟨by simp, by simp⟩)
      · exact .inr (.inr ⟨by simp [hs], by simp [hs]⟩)
    · exact .inr (.inr ⟨by simp [ha], by simp [ha]⟩)

/-- Everything PROC_PT_DESC can decide (43_poller_fsm.md R295). -/
theorem judgePtDesc_cases (r : Except CodecError Response) (s : State) :
    (∃ f, r = .ok ⟨s.cfg.addrs.pointDescBase + s.poller.ptCount, s.cfg.status.ok, f⟩ ∧
        judgePtDesc r s = .ok (s.nextFree.withPoller (s.poller.addPoint (s.descIn f)))) ∨
      ((∀ f, r ≠ .ok ⟨s.cfg.addrs.pointDescBase + s.poller.ptCount, s.cfg.status.ok, f⟩) ∧
        judgePtDesc r s = .ok s) := by
  cases r with
  | error e => exact .inr ⟨by simp, rfl⟩
  | ok r =>
    obtain ⟨a, st, f⟩ := r
    unfold judgePtDesc
    by_cases h : a = s.cfg.addrs.pointDescBase + s.poller.ptCount ∧ st = s.cfg.status.ok
    · obtain ⟨rfl, rfl⟩ := h
      exact .inl ⟨f, rfl, by simp⟩
    · refine .inr ⟨fun d hd => h ?_, by simp only [if_neg h]⟩
      injection hd with hd
      injection hd with h1 h2
      exact ⟨h1, h2⟩

/-- Everything PROC_PT_VAL can decide while point `i` is being acquired (43_poller_fsm.md R311). -/
theorem judgePtVal_cases (i : BitVec 8) (r : Except CodecError Response) (s : State) :
    ((∃ e, r = .error e) ∧ judgePtVal i r s = .ok s) ∨
      ∃ r', r = .ok r' ∧
        ((r'.addr ≠ s.cfg.addrs.readPointDataBase + i ∧
            judgePtVal i r s = .ok (s.withPoller s.poller.advance)) ∨
          (r'.addr = s.cfg.addrs.readPointDataBase + i ∧ r'.status ≠ s.cfg.status.ok ∧
            judgePtVal i r s = .ok s) ∨
          (r'.addr = s.cfg.addrs.readPointDataBase + i ∧ r'.status = s.cfg.status.ok ∧
            judgePtVal i r s = .ok (s.withPoller
              ((s.poller.setValue i.toNat (s.valueIn r'.fields)).clearRetries.advance)))) := by
  cases r with
  | error e => exact .inl ⟨⟨e, rfl⟩, rfl⟩
  | ok r =>
    refine .inr ⟨r, rfl, ?_⟩
    unfold judgePtVal
    by_cases ha : r.addr = s.cfg.addrs.readPointDataBase + i
    · by_cases hs : r.status = s.cfg.status.ok
      · exact .inr (.inr ⟨ha, hs, by simp [ha, hs]⟩)
      · exact .inr (.inl ⟨ha, hs, by simp [ha, hs]⟩)
    · exact .inl ⟨ha, by simp [ha]⟩

/-! ### The dispatcher's stage 1 -/

/-- Everything stage 1 can do for a point address (42_dispatcher.md R240). -/
theorem servePoint_cases (base : Byte) (i : BitVec 8) (s : State)
    (serve : DbEntry → Host.Outcome State Fault Refusal) :
    (s.cfg.np ≤ i.toNat ∧
        ((i.toNat < s.cfg.maxPoints ∧
            servePoint base i s serve = .next (s.notImplemented (pointAddr base i))) ∨
          (s.cfg.maxPoints ≤ i.toNat ∧ servePoint base i s serve = .refused .illFormedAddress))) ∨
      (i.toNat < s.cfg.np ∧
        ((∃ e, s.responder.ptDb[i.toNat]? = some e ∧ servePoint base i s serve = serve e) ∨
          (s.responder.ptDb[i.toNat]? = none ∧
            servePoint base i s serve = .fault .pointMissing))) := by
  unfold servePoint
  by_cases h : i.toNat < s.cfg.np
  · refine .inr ⟨h, ?_⟩
    rw [if_pos h]
    cases s.responder.ptDb[i.toNat]? with
    | none => exact .inr ⟨rfl, rfl⟩
    | some e => exact .inl ⟨e, rfl, rfl⟩
  · refine .inl ⟨Nat.not_lt.1 h, ?_⟩
    rw [if_neg h]
    by_cases hm : i.toNat < s.cfg.maxPoints
    · exact .inl ⟨hm, if_pos hm⟩
    · exact .inr ⟨Nat.not_lt.1 hm, if_neg hm⟩

/-- Stage 1 on a point of the database. -/
theorem servePoint_entry {base : Byte} {i : BitVec 8} {s : State} {e : DbEntry}
    {serve : DbEntry → Host.Outcome State Fault Refusal} (hi : i.toNat < s.cfg.np)
    (he : s.responder.ptDb[i.toNat]? = some e) : servePoint base i s serve = serve e := by
  simp [servePoint, hi, he]

/-- What stage 1 leaves to a handler that completes. -/
theorem servePoint_next {base : Byte} {i : BitVec 8} {s t : State}
    {serve : DbEntry → Host.Outcome State Fault Refusal}
    (h : servePoint base i s serve = .next t) :
    (s.cfg.np ≤ i.toNat ∧ i.toNat < s.cfg.maxPoints ∧ t = s.notImplemented (pointAddr base i)) ∨
      ∃ e, i.toNat < s.cfg.np ∧ s.responder.ptDb[i.toNat]? = some e ∧ serve e = .next t := by
  rcases servePoint_cases base i s serve with ⟨hi, ⟨hm, h'⟩ | ⟨-, h'⟩⟩ | ⟨hi, ⟨e, he, h'⟩ | ⟨-, h'⟩⟩ <;>
    rw [h'] at h
  · cases h; exact .inl ⟨hi, hm, rfl⟩
  · cases h
  · exact .inr ⟨e, hi, he, h⟩
  · cases h

/-- Stage 1 completes on an unmapped address only, with its answer (42_dispatcher.md R240). -/
theorem serveUnmapped_next {a : Byte} {s t : State} (h : serveUnmapped a s = .next t) :
    classify s.cfg.toProtocol a = .unmapped ∧
      (.next t : Host.Outcome State Fault Refusal) = .next (s.notImplemented a) := by
  unfold serveUnmapped at h
  split at h
  · exact ⟨by assumption, h.symm⟩
  · cases h

/-- Everything a request that completes can do: it answers with one frame that carries its address, and
only an accepted write does more (42_dispatcher.md R233, R250). -/
theorem exec_request {i : Instr} {a : Byte} {s t : State} (ha : requestAddr s.cfg.addrs i = some a)
    (ht : exec i s = .next t) :
    (∃ r, t = s.respond a r) ∨
      ∃ k x e, i = .writePointData k (some x) ∧ k.toNat < s.cfg.np ∧
        s.responder.ptDb[k.toNat]? = some e ∧ includesWrite s.cfg.access e.desc.accessRights = true ∧
        e.desc.takes s.cfg.toProtocol x = true ∧ t = s.acceptWrite k x := by
  have key : ∀ (a' : Byte) (r : Except DispatchError RspFields), a' = a →
      Host.Outcome.next (s.respond a' r) = (.next t : Host.Outcome State Fault Refusal) →
      ∃ r, t = s.respond a r := by
    rintro a' r rfl h; cases h; exact ⟨_, rfl⟩
  cases i <;> simp only [requestAddr, Option.some.injEq, reduceCtorEq] at ha
  case pointDesc k =>
    rcases servePoint_next ht with ⟨-, -, rfl⟩ | ⟨e, -, -, ht⟩
    · exact .inl ⟨_, by rw [← ha]; rfl⟩
    · exact .inl (key _ _ ha ht)
  case readPointData k =>
    rcases servePoint_next ht with ⟨-, -, rfl⟩ | ⟨e, -, -, ht⟩
    · exact .inl ⟨_, by rw [← ha]; rfl⟩
    · split at ht <;> exact .inl (key _ _ ha ht)
  case writePointData k x =>
    rcases servePoint_next ht with ⟨-, -, rfl⟩ | ⟨e, hk, he, ht⟩
    · exact .inl ⟨_, by rw [← ha]; rfl⟩
    · split at ht
      · rename_i hw
        cases x with
        | none => cases ht
        | some v =>
          simp only at ht
          split at ht
          · rename_i hdt
            cases ht
            exact .inr ⟨k, v, e, rfl, hk, he, hw, hdt, rfl⟩
          · cases ht
      · exact .inl (key _ _ ha ht)
  case unmappedLo0B => exact .inl (key _ _ ha (serveUnmapped_next ht).2.symm)
  case unmappedLo0C lo =>
    exact .inl (key _ _ ((UnmappedRow.addr0C_eq lo).trans ha) (serveUnmapped_next ht).2.symm)
  case unmappedLo10 lo =>
    exact .inl (key _ _ ((UnmappedRow.addr10_eq lo).trans ha) (serveUnmapped_next ht).2.symm)
  case unmappedHi a => exact .inl (key _ _ ha (serveUnmapped_next ht).2.symm)
  all_goals exact .inl (key _ _ ha ht)

/-! ### The poller's states -/

/-- What every poller state leaves alone, and what it may transmit (43_poller_fsm.md R274). -/
structure Polled (s t : State) : Prop where
  cfg : t.cfg = s.cfg
  responder : t.responder = s.responder
  events : t.events = s.events
  rTx : t.rTx = s.rTx
  pTx : t.pTx = s.pTx ∨ ∃ a, t.pTx = s.pTx ++ [packRequest s.cfg.crc a []]
  rxBuf : t.poller.rxBuf = s.poller.rxBuf

theorem Polled.refl (s : State) : Polled s s := ⟨rfl, rfl, rfl, rfl, .inl rfl, rfl⟩

/-- A register update after an update of the poller only. -/
theorem Polled.goto {s t : State} (h : Polled s t) (c : BitVec 4) :
    Polled s (t.withPoller (t.poller.goto c)) :=
  ⟨h.cfg, h.responder, h.events, h.rTx, h.pTx, h.rxBuf⟩

theorem Polled.drive {s t : State} {f : FsmState} {h : Handled} (hp : Polled s h.state)
    (ht : drive f h = .next t) : Polled s t := by
  obtain ⟨g, rfl, -⟩ := drive_next ht
  exact hp.goto _

theorem Polled.waitAns (s : State) : Polled s (waitAns s).state := by
  rcases waitAns_cases s with ⟨-, h⟩ | ⟨-, ⟨-, h⟩ | ⟨-, -, h⟩ | ⟨-, -, h⟩⟩ <;> rw [h] <;>
    exact ⟨rfl, rfl, rfl, rfl, .inl rfl, rfl⟩

theorem Polled.countedSend (s : State) (a : Byte) : Polled s (countedSend s a).state := by
  rcases countedSend_cases s a with ⟨-, h⟩ | ⟨-, h⟩ <;> rw [h]
  · exact ⟨rfl, rfl, rfl, rfl, .inl rfl, rfl⟩
  · exact ⟨rfl, rfl, rfl, rfl, .inr ⟨a, rfl⟩, rfl⟩

theorem Polled.judgeItfVer (r : Except CodecError Response) (s : State) :
    (judgeItfVer r s).state = s := by
  unfold Machine.judgeItfVer
  repeat' split
  all_goals rfl

theorem Polled.judgeBrdId (r : Except CodecError Response) (s : State) :
    Polled s (judgeBrdId r s).state := by
  unfold Machine.judgeBrdId
  repeat' split
  all_goals exact ⟨rfl, rfl, rfl, rfl, .inl rfl, rfl⟩

theorem Polled.judgePtDesc (r : Except CodecError Response) (s : State) :
    Polled s (judgePtDesc r s).state := by
  unfold Machine.judgePtDesc
  repeat' split
  all_goals exact ⟨rfl, rfl, rfl, rfl, .inl rfl, rfl⟩

theorem Polled.judgePtVal (i : BitVec 8) (r : Except CodecError Response) (s : State) :
    Polled s (judgePtVal i r s).state := by
  unfold Machine.judgePtVal
  repeat' split
  all_goals exact ⟨rfl, rfl, rfl, rfl, .inl rfl, rfl⟩

/-- Everything common to the fifteen states. -/
theorem exec_polled {i : Instr} {s t : State} (hi : requestAddr s.cfg.addrs i = none)
    (ht : exec i s = .next t) : Polled s t := by
  have crc : ∀ {u : State}, Polled s.crcIdle u → Polled s u := fun h =>
    ⟨h.cfg, h.responder, h.events, h.rTx, h.pTx, h.rxBuf⟩
  have free : ∀ {u v : State}, Polled u.nextFree v → Polled u v := fun h =>
    ⟨h.cfg, h.responder, h.events, h.rTx, h.pTx, h.rxBuf⟩
  have send : ∀ a, Polled s (s.send a) := fun a => ⟨rfl, rfl, rfl, rfl, .inr ⟨a, rfl⟩, rfl⟩
  cases i <;> simp only [requestAddr, reduceCtorEq] at hi
  case fsmInit =>
    simp only [exec, execFsmInit] at ht
    refine Polled.drive ?_ ht
    exact ⟨rfl, rfl, rfl, rfl, .inl rfl, rfl⟩
  case fsmSendItfVer =>
    simp only [exec, execFsmSendItfVer] at ht
    refine Polled.drive ?_ ht
    exact send _
  case fsmSendBrdId =>
    simp only [exec, execFsmSendBrdId] at ht
    refine Polled.drive ?_ ht
    exact send _
  case fsmWaitItfVerAns => exact (Polled.waitAns s).drive ht
  case fsmWaitBrdIdAns => exact (Polled.waitAns s).drive ht
  case fsmWaitPtDescAns => exact (Polled.waitAns s).drive ht
  case fsmWaitPtValAns => exact (Polled.waitAns s).drive ht
  case fsmProcItfVer =>
    obtain ⟨h, hh, ht⟩ := driveOrFault_next ht
    obtain ⟨buf, -, hj⟩ := processAnswer_ok hh
    cases hj
    refine Polled.drive (crc ?_) ht
    rw [Polled.judgeItfVer]
    exact .refl _
  case fsmProcBrdId =>
    obtain ⟨h, hh, ht⟩ := driveOrFault_next ht
    obtain ⟨buf, -, hj⟩ := processAnswer_ok hh
    cases hj
    exact Polled.drive (crc (Polled.judgeBrdId _ _)) ht
  case fsmProcPtDesc =>
    obtain ⟨h, hh, ht⟩ := driveOrFault_next ht
    obtain ⟨buf, -, hj⟩ := processAnswer_ok hh
    cases hj
    exact Polled.drive (crc (Polled.judgePtDesc _ _)) ht
  case fsmProcPtVal =>
    obtain ⟨h, hh, ht⟩ := driveOrFault_next ht
    obtain ⟨buf, -, hj⟩ := processAnswer_ok hh
    cases hj
    exact Polled.drive (crc (free (Polled.judgePtVal _ _ _))) ht
  case fsmSendPtDesc =>
    refine Polled.drive (free ?_) ht
    rcases handleSendPtDesc_cases s with ⟨-, h⟩ | ⟨-, h⟩ <;> rw [h]
    · exact .refl _
    · exact Polled.countedSend _ _
  case fsmBuildSch =>
    exact Polled.drive (f := .buildSch) (h := handleBuildSch s) ⟨rfl, rfl, rfl, rfl, .inl rfl, rfl⟩ ht
  case fsmRunSch =>
    refine Polled.drive ?_ ht
    simp only [handleRunSch]
    split <;> exact ⟨rfl, rfl, rfl, rfl, .inl rfl, rfl⟩
  case fsmSendPtVal =>
    refine Polled.drive ?_ ht
    simp only [handleSendPtVal]
    split
    · exact .refl s
    · exact Polled.countedSend _ _

/-! ### What an unpacked response can be -/

/-- What an OK payload of a class with a known datatype decodes to: it has the class's length, and a
descriptor has a legal datatype code. -/
theorem decodeOkPayload_ok {p : Protocol} {cls : AddrClass} {dt : Datatype} {a : Byte} {pl : List Byte}
    {r : Response} (h : decodeOkPayload p cls dt a pl = .ok r) :
    pl.length = rspLen p cls dt ∧ r = ⟨a, p.status.ok, decodeRspPayload p cls dt pl⟩ ∧
      ∀ d, r.fields = .desc d → Datatype.ofCode p d.dtype ≠ none := by
  unfold decodeOkPayload at h
  split at h
  · cases h
  rename_i hl
  refine ⟨not_not.1 hl, ?_⟩
  split at h
  · rename_i d hd
    split at h
    · cases h
    · rename_i hdt
      cases h
      rw [hd]
      exact ⟨rfl, fun d' h => by cases h; exact hdt⟩
  · rename_i hne
    cases h
    exact ⟨rfl, fun d h => absurd h (hne d)⟩

/-- The fields of a response fit its address (41_codec.md R222, R223): a non-OK response has none. -/
theorem unpackResponse_ok {p : Protocol} {v : PointView} {buf : Frame} {r : Response}
    (h : unpackResponse p v buf = .ok r) :
    (r.status ≠ p.status.ok ∧ r.fields = .none) ∨
      (r.status = p.status.ok ∧ fieldsFit p v r.addr r.fields) := by
  unfold unpackResponse at h
  split at h
  · cases h
  rename_i body _
  generalize body.getD 1 0 = a at h
  generalize (body.drop 2).dropLast = pl at h
  dsimp only at h
  split at h
  · rename_i hst
    split at h
    · cases h
    · cases h; exact .inl ⟨hst, rfl⟩
  refine .inr ?_
  unfold fieldsFit
  split at h <;> rename_i hc
  · cases h
  · split at h
    · cases h
    · rename_i dt hdt
      obtain ⟨hl, rfl, -⟩ := decodeOkPayload_ok h
      refine ⟨rfl, ?_⟩
      rw [hc]
      exact ⟨_, rfl, hdt, Value.fits_ofBytes hl⟩
  · split at h
    · cases h
    · rename_i dt hdt
      obtain ⟨-, rfl, -⟩ := decodeOkPayload_ok h
      refine ⟨rfl, ?_⟩
      rw [hc]
      exact ⟨rfl, by simp [hdt]⟩
  · obtain ⟨hl, rfl, hd⟩ := decodeOkPayload_ok h
    refine ⟨rfl, ?_⟩
    rw [hc]
    exact ⟨_, rfl, PointDesc.fits_ofBytes hl, hd _ rfl⟩
  · rename_i r
    obtain ⟨hl, rfl, -⟩ := decodeOkPayload_ok h
    refine ⟨rfl, ?_⟩
    rw [hc]
    cases r <;> first
      | exact ⟨_, rfl⟩
      | rfl
      | exact ⟨_, rfl, BoardId.fits_ofBytes hl⟩
      | exact ⟨_, rfl, by simpa [bytesAt, rspLen] using hl.ge⟩

/-! ### Input events -/

/-- A step that completes leaves a state without events alone, and otherwise takes the next event, under
a configuration that meets the boot requirements and with a legal state code. -/
theorem step_next {s t : State} (ht : step s = .next t) :
    s.cfg.ok = true ∧ s.poller.state ≠ 15 ∧
      ((s.events = [] ∧ t = s) ∨
        ∃ e es, s.events = e :: es ∧ onEvent e (s.withEvents es) = .next t) := by
  unfold step stepState at ht
  split at ht
  · refine ⟨by assumption, ?_⟩
    split at ht
    · cases ht
    · refine ⟨by assumption, ?_⟩
      split at ht
      · cases ht; exact .inl ⟨by assumption, rfl⟩
      · exact .inr ⟨_, _, by assumption, ht⟩
  · cases ht

/-- The step on a state with a next event. -/
theorem step_event {s : State} {e : Event} {es : List Event} (hc : s.cfg.ok = true)
    (hs : s.poller.state ≠ 15) (he : s.events = e :: es) :
    step s = onEvent e (s.withEvents es) := by
  rw [step, stepState, if_pos hc, if_neg hs, he]

/-- Everything the mote side's `RX_BYTE` can do (10_state.md R81). -/
theorem onPollerRxByte_cases (b : Byte) (s : State) :
    (s.poller.rxCount.toNat < s.cfg.rxBufSize ∧
        onPollerRxByte b s = .next (s.withPoller (s.poller.push b))) ∨
      (s.cfg.rxBufSize ≤ s.poller.rxCount.toNat ∧ onPollerRxByte b s = .next s) := by
  unfold onPollerRxByte
  split
  · exact .inl ⟨by assumption, rfl⟩
  · exact .inr ⟨by omega, rfl⟩

/-- Everything the sensor side's `RX_BYTE` can do (42_dispatcher.md R230). -/
theorem onResponderRxByte_cases (b : Byte) (s : State) :
    (s.responder.srxCount.toNat < s.cfg.rxBufSize ∧
        onResponderRxByte b s = .next (s.withResponder (s.responder.push b))) ∨
      (s.cfg.rxBufSize ≤ s.responder.srxCount.toNat ∧ onResponderRxByte b s = .next s) := by
  unfold onResponderRxByte
  split
  · exact .inl ⟨by assumption, rfl⟩
  · exact .inr ⟨by omega, rfl⟩

/-- Everything the sensor side's `RX_IDLE` can do when it completes (42_dispatcher.md R231). -/
theorem onResponderRxIdle_next {s t : State} (ht : onResponderRxIdle s = .next t) :
    (s.responder.srxCount = 0 ∧ t = s) ∨
      ∃ buf, s.responderFrame = some buf ∧
        ((∃ e, decodeRequest s.cfg.toProtocol s.responderView buf = .error e ∧ t = s.consumed) ∨
          ∃ i, decodeRequest s.cfg.toProtocol s.responderView buf = .ok i ∧
            exec i s.consumed = .next t) := by
  unfold onResponderRxIdle at ht
  split at ht
  · cases ht; exact .inl ⟨by assumption, rfl⟩
  · split at ht
    · cases ht
    · refine .inr ⟨_, by assumption, ?_⟩
      split at ht
      · cases ht; exact .inl ⟨_, by assumption, rfl⟩
      · exact .inr ⟨_, by assumption, ht⟩

/-- Everything `APP_SET` can do when it completes: the poller, the links and the responder's receive path
and descriptors stay, and a server address it writes has its size (42_dispatcher.md R234). -/
theorem onAppSet_next {f : AppField} {s t : State} (ht : onAppSet f s = .next t) :
    ∃ r, t = s.withResponder r ∧ r.srxBuf = s.responder.srxBuf ∧
      r.srxCount = s.responder.srxCount ∧
      (r.svrMain = s.responder.svrMain ∨ r.svrMain.length = s.cfg.fieldSizes.svrAddr) ∧
      (r.svrSec = s.responder.svrSec ∨ r.svrSec.length = s.cfg.fieldSizes.svrAddr) ∧
      (r.ptDb = s.responder.ptDb ∨ ∃ i x e, f = .pointValue i x ∧
        s.responder.ptDb[i.toNat]? = some e ∧ e.desc.takes s.cfg.toProtocol x = true ∧
        r = s.responder.setValue i.toNat x) := by
  cases f
  case svrMain a =>
    simp only [onAppSet] at ht
    split at ht <;> cases ht
    exact ⟨_, rfl, rfl, rfl, .inr (by assumption), .inl rfl, .inl rfl⟩
  case svrSec a =>
    simp only [onAppSet] at ht
    split at ht <;> cases ht
    exact ⟨_, rfl, rfl, rfl, .inl rfl, .inr (by assumption), .inl rfl⟩
  case pointValue i x =>
    simp only [onAppSet] at ht
    split at ht
    · split at ht
      · cases ht
      · split at ht
        · cases ht
          exact ⟨_, rfl, rfl, rfl, .inl rfl, .inl rfl,
            .inr ⟨i, x, _, rfl, by assumption, by assumption, rfl⟩⟩
        · cases ht
    · cases ht
  all_goals cases ht; exact ⟨_, rfl, rfl, rfl, .inl rfl, .inl rfl, .inl rfl⟩

/-- A tick runs the handler its state code selects (43_poller_fsm.md R270). -/
theorem onTick_next {s t : State} (ht : onTick s = .next t) :
    ∃ i, decodeState s.poller.state = some i ∧ exec i s = .next t := by
  unfold onTick at ht
  split at ht
  · exact ⟨_, by assumption, ht⟩
  · cases ht

/-- A state code never selects a request. -/
theorem requestAddr_decodeState {m : AddrMap} {c : BitVec 4} {i : Instr} (h : decodeState c = some i) :
    requestAddr m i = none := by
  unfold decodeState at h
  split at h <;> cases h <;> rfl

/-- A request frame never decodes to a poller state: it decodes to a request of its own address. -/
theorem requestAddr_decodeRequest {p : Protocol} {v : PointView} {buf : Frame} {i : Instr}
    (h : decodeRequest p v buf = .ok i) : ∃ a, requestAddr p.addrs i = some a := by
  unfold decodeRequest at h
  split at h
  · cases h
  split at h
  · unfold validRequest at h
    repeat' split at h
    all_goals try cases h
    all_goals try exact ⟨_, rfl⟩
    rename_i r _ _
    cases r <;> exact ⟨_, rfl⟩
  · unfold invalidRequest unmappedRequest at h
    repeat' split at h
    all_goals try cases h
    all_goals exact ⟨_, rfl⟩

end Sys2Proof.Machine
end

