-- ==== Sys2Proof/Laws/PerInstr.lean ====
section
/-!
SUPPORT. Statements made once per instruction: the family `FrameLayout` says that the encoding of each
instruction lies in its own row of the opcode table and has the layout of its format.
-/

namespace Sys2Proof.Laws.FrameLayout

/-- The mask and match of the row of spec/opcode_table.json that an instruction belongs to. -/
inductive Row where
  | request (mask value : Byte)
  | state (value : BitVec 4)

/-- The instruction's row (10_state.md R40). -/
def row : Instr → Row
  | .itfVersion => .request 0xFF 0x00
  | .brdId => .request 0xFF 0x01
  | .brdStatus => .request 0xFF 0x02
  | .brdCmd _ => .request 0xFF 0x03
  | .batStatus => .request 0xFF 0x04
  | .batCharge => .request 0xFF 0x05
  | .svrMainAddr => .request 0xFF 0x06
  | .svrSecAddr => .request 0xFF 0x07
  | .dspWrite _ => .request 0xFF 0x08
  | .radioStatus _ => .request 0xFF 0x09
  | .radioStrength _ => .request 0xFF 0x0A
  | .unmappedLo0B => .request 0xFF 0x0B
  | .unmappedLo0C _ => .request 0xFC 0x0C
  | .unmappedLo10 _ => .request 0xF0 0x10
  | .unmappedHi _ => .request 0x80 0x80
  | .pointDesc _ => .request 0xE0 0x20
  | .readPointData _ => .request 0xE0 0x40
  | .writePointData _ _ => .request 0xE0 0x60
  | .fsmInit => .state 0
  | .fsmSendItfVer => .state 1
  | .fsmWaitItfVerAns => .state 2
  | .fsmProcItfVer => .state 3
  | .fsmSendBrdId => .state 4
  | .fsmWaitBrdIdAns => .state 5
  | .fsmProcBrdId => .state 6
  | .fsmSendPtDesc => .state 7
  | .fsmWaitPtDescAns => .state 8
  | .fsmProcPtDesc => .state 9
  | .fsmBuildSch => .state 10
  | .fsmRunSch => .state 11
  | .fsmSendPtVal => .state 12
  | .fsmWaitPtValAns => .state 13
  | .fsmProcPtVal => .state 14

/-- A request's frame carries an address of the row, its length in its size byte, and between 4 and 28
bytes (30_encoding.md R120 to R123); a poller state is its row's code (30_encoding.md R170). -/
def fits (e : Encoded) : Row → Prop
  | .request mask value => ∃ f, e = .frame f ∧ f.getD 1 0 &&& mask = value ∧
      (f.getD 0 0).toNat + 2 = f.length ∧ 4 ≤ f.length ∧ f.length ≤ 28
  | .state value => e = .stateCode value

/-- The reference parameters with another CRC. -/
abbrev params (p : CrcParams) : Protocol := { Protocol.reference with crc := p }

/-- The encoding of a well-formed instruction under the reference parameters fits its row, for every CRC
parameter set and every view of the points. -/
def Statement (i : Instr) : Prop := ∀ (p : CrcParams) (v : PointView),
  i.wf (params p) v = true → fits (encode (params p) i) (row i)

/-- The reference parameters have the reference map. -/
@[simp] theorem reference_addrs : Protocol.reference.addrs = AddrMap.reference := rfl

/-- A packed request of a payload of at most 24 bytes fits every row its address lies in. -/
theorem fits_packRequest (p : CrcParams) (a : Byte) (pl : List Byte) (mask value : Byte)
    (ha : a &&& mask = value) (hl : pl.length ≤ 24) :
    fits (.frame (packRequest p a pl)) (.request mask value) := by
  refine ⟨_, rfl, by simpa [packRequest] using ha, ?_, by simp, by simp; omega⟩
  simp [packRequest, crcBytes]
  omega

theorem itfVersion : Statement .itfVersion := fun p _ _ =>
  fits_packRequest p _ _ _ _ (by simp [AddrMap.reference]) (by simp)

theorem brdId : Statement .brdId := fun p _ _ =>
  fits_packRequest p _ _ _ _ (by simp [AddrMap.reference]) (by simp)

theorem brdStatus : Statement .brdStatus := fun p _ _ =>
  fits_packRequest p _ _ _ _ (by simp [AddrMap.reference]) (by simp)

theorem brdCmd (cmd : Byte) : Statement (.brdCmd cmd) := fun p _ _ =>
  fits_packRequest p _ _ _ _ (by simp [AddrMap.reference]) (by simp)

theorem batStatus : Statement .batStatus := fun p _ _ =>
  fits_packRequest p _ _ _ _ (by simp [AddrMap.reference]) (by simp)

theorem batCharge : Statement .batCharge := fun p _ _ =>
  fits_packRequest p _ _ _ _ (by simp [AddrMap.reference]) (by simp)

theorem svrMainAddr : Statement .svrMainAddr := fun p _ _ =>
  fits_packRequest p _ _ _ _ (by simp [AddrMap.reference]) (by simp)

theorem svrSecAddr : Statement .svrSecAddr := fun p _ _ =>
  fits_packRequest p _ _ _ _ (by simp [AddrMap.reference]) (by simp)

theorem dspWrite (msg : List Byte) : Statement (.dspWrite msg) := fun p _ hw =>
  fits_packRequest p _ _ _ _ (by simp [AddrMap.reference]) (Nat.le_of_eq (beq_iff_eq.1 hw))

theorem radioStatus (v : Byte) : Statement (.radioStatus v) := fun p _ _ =>
  fits_packRequest p _ _ _ _ (by simp [AddrMap.reference]) (by simp)

theorem radioStrength (v : Byte) : Statement (.radioStrength v) := fun p _ _ =>
  fits_packRequest p _ _ _ _ (by simp [AddrMap.reference]) (by simp)

theorem unmappedLo0B : Statement .unmappedLo0B := fun p _ _ =>
  fits_packRequest p _ _ _ _ (by decide) (by simp)

theorem unmappedLo0C (lo : BitVec 2) : Statement (.unmappedLo0C lo) := fun p _ _ =>
  have h : ∀ k : BitVec 2, UnmappedRow.addr0C k &&& 0xFC#8 = 0x0C#8 := by decide
  fits_packRequest p _ _ _ _ (h lo) (by simp)

theorem unmappedLo10 (lo : BitVec 4) : Statement (.unmappedLo10 lo) := fun p _ _ =>
  have h : ∀ k : BitVec 4, UnmappedRow.addr10 k &&& 0xF0#8 = 0x10#8 := by decide
  fits_packRequest p _ _ _ _ (h lo) (by simp)

theorem unmappedHi (a : Byte) : Statement (.unmappedHi a) := fun p v hw =>
  have h : ∀ k : Byte, (classify Protocol.reference k == .unmapped && UnmappedRow.ofAddr k == .hi) = true →
      k &&& 0x80#8 = 0x80#8 := by decide +kernel
  fits_packRequest p _ _ _ _ (h a hw) (by simp)

/-- An index below `MAX_POINTS` leaves the range's bits 7:5. -/
theorem add_index_mask (base : Byte) (hb : base ∈ ([0x20, 0x40, 0x60] : List Byte)) (k : Byte)
    (hk : k.toNat < 32) : (base + k) &&& 0xE0#8 = base := by
  revert k
  fin_cases hb <;> decide +kernel

theorem pointDesc (i : BitVec 8) : Statement (.pointDesc i) := fun p _ hw =>
  fits_packRequest p _ _ _ _ (add_index_mask 0x20 (by decide) i (of_decide_eq_true hw)) (by simp)

theorem readPointData (i : BitVec 8) : Statement (.readPointData i) := fun p _ hw =>
  fits_packRequest p _ _ _ _ (add_index_mask 0x40 (by decide) i (of_decide_eq_true hw)) (by simp)

theorem writePointData (i : BitVec 8) (x : Option Value) : Statement (.writePointData i x) :=
  fun p v hw => by
  have hi : i.toNat < 32 := by
    cases x <;> simp only [Instr.wf, Bool.and_eq_true] at hw
    · exact of_decide_eq_true hw.1
    · exact of_decide_eq_true hw.1.1
  have ha := add_index_mask 0x60 (by decide) i hi
  cases x with
  | none => exact fits_packRequest p _ _ _ _ ha (by simp)
  | some x =>
    refine fits_packRequest p _ _ _ _ ha ?_
    rw [Value.length_bytes]
    have h : ∀ dt, Datatype.size Protocol.reference dt ≤ 24 := by intro dt; cases dt <;> decide
    exact h x.dt

theorem fsmInit : Statement .fsmInit := fun _ _ _ => rfl

theorem fsmSendItfVer : Statement .fsmSendItfVer := fun _ _ _ => rfl

theorem fsmWaitItfVerAns : Statement .fsmWaitItfVerAns := fun _ _ _ => rfl

theorem fsmProcItfVer : Statement .fsmProcItfVer := fun _ _ _ => rfl

theorem fsmSendBrdId : Statement .fsmSendBrdId := fun _ _ _ => rfl

theorem fsmWaitBrdIdAns : Statement .fsmWaitBrdIdAns := fun _ _ _ => rfl

theorem fsmProcBrdId : Statement .fsmProcBrdId := fun _ _ _ => rfl

theorem fsmSendPtDesc : Statement .fsmSendPtDesc := fun _ _ _ => rfl

theorem fsmWaitPtDescAns : Statement .fsmWaitPtDescAns := fun _ _ _ => rfl

theorem fsmProcPtDesc : Statement .fsmProcPtDesc := fun _ _ _ => rfl

theorem fsmBuildSch : Statement .fsmBuildSch := fun _ _ _ => rfl

theorem fsmRunSch : Statement .fsmRunSch := fun _ _ _ => rfl

theorem fsmSendPtVal : Statement .fsmSendPtVal := fun _ _ _ => rfl

theorem fsmWaitPtValAns : Statement .fsmWaitPtValAns := fun _ _ _ => rfl

theorem fsmProcPtVal : Statement .fsmProcPtVal := fun _ _ _ => rfl

end Sys2Proof.Laws.FrameLayout
end

