-- ==== Sys2Proof/Machine/Link.lean ====
section
/-!
DEFINITION. The perfect link between the two units (60_exceptions.md R372), as a choice of input events:
each transmitted frame is delivered unchanged, followed by one `RX_IDLE`, before the next event of the
list. The link is the environment, not the block: any other list of events is as legal (R372), and
no definition of the machine depends on this file.
-/

namespace Sys2Proof.Machine

/-- The events that deliver a frame to the responder. -/
def deliverToResponder (f : Frame) : List Event :=
  f.map Event.responderRxByte ++ [.responderRxIdle]

/-- The events that deliver a frame to the poller. -/
def deliverToPoller (f : Frame) : List Event :=
  f.map Event.pollerRxByte ++ [.pollerRxIdle]

/-- What a perfect link presents after the step from `s` to `t`: the frames that step transmitted. DESIGN
CHOICE (notes/assumptions/18.md): 60_exceptions.md R372 delivers a responder's `TX` in the same step as the
request's `RX_IDLE`, while a step takes one input event (R353, 10_state.md R80). The model places the
delivery as the next events, one for each later step, before any other event. -/
def perfectDeliveries (s t : State) : List Event :=
  (t.pTx.drop s.pTx.length).flatMap deliverToResponder
    ++ (t.rTx.drop s.rTx.length).flatMap deliverToPoller

/-- One step of the block joined by the perfect link. -/
def stepOnPerfectLink (s : State) : Host.Outcome State Fault Refusal :=
  match step s with
  | .next t => .next (t.withEvents (perfectDeliveries s t ++ t.events))
  | .fault e => .fault e
  | .refused e => .refused e

end Sys2Proof.Machine
end

