-- ==== Sys2Proof/Machine/Ports.lean ====
section
/-!
DEFINITION. The port-level realisation of 10_state.md R80: each input event is a strobe, and `TX` is a
frame-wide output presented in the step that produces it.
-/

namespace Sys2Proof.Machine

/-- The poller's input strobes. -/
structure PollerPorts where
  tick : Bool
  rxValid : Bool
  rxData : Byte
  rxIdle : Bool
  deriving DecidableEq, Repr

/-- The responder's input strobes and its application write port. -/
structure ResponderPorts where
  rxValid : Bool
  rxData : Byte
  rxIdle : Bool
  appSet : Option AppField
  deriving DecidableEq, Repr

/-- The events the poller's asserted strobes stand for, one event each. -/
def PollerPorts.events (p : PollerPorts) : List Event :=
  (if p.tick then [.tick] else []) ++ (if p.rxValid then [.pollerRxByte p.rxData] else [])
    ++ (if p.rxIdle then [.pollerRxIdle] else [])

/-- The events the responder's asserted strobes stand for, one event each. -/
def ResponderPorts.events (p : ResponderPorts) : List Event :=
  (if p.rxValid then [.responderRxByte p.rxData] else [])
    ++ (if p.rxIdle then [.responderRxIdle] else []) ++ (p.appSet.toList.map Event.appSet)

/-- Events that occur together are presented in some order, and every order is a legal run
(60_exceptions.md R353). -/
def isPresentationOf (es : List Event) (p : PollerPorts) (r : ResponderPorts) : Prop :=
  es.Perm (p.events ++ r.events)

/-- The `TX` output of a unit in one step: `tx_valid`, `tx_len[8:0]` and `tx_data`. -/
structure TxPort where
  valid : Bool
  len : BitVec 9
  data : BitVec (257 * 8)
  deriving DecidableEq, Repr

/-- The output presented for the frame a step transmitted, if any. DESIGN CHOICE
(notes/assumptions/18.md): 10_state.md R80 does not say which bits of `tx_data` hold byte `k` of the
frame, and the model puts it at bits `8k+7:8k`. R80 does not say either what `tx_len` and `tx_data` hold
while `tx_valid` is 0, nor `tx_data` above the frame: those bits are the arguments `openLen` and
`openData`, which may be anything. -/
def TxPort.ofStep (openLen : BitVec 9) (openData : BitVec (257 * 8)) : Option Frame → TxPort
  | none => { valid := false, len := openLen, data := openData }
  | some f =>
    { valid := true
      len := BitVec.ofNat 9 f.length
      data := (openData >>> (8 * f.length)) <<< (8 * f.length) ||| fromLeBits (257 * 8) f }

/-- The poller's `TX` output in the step from `s` to `t`, for any value of the open bits. -/
def pollerTxPort (openLen : BitVec 9) (openData : BitVec (257 * 8)) (s t : State) : TxPort :=
  TxPort.ofStep openLen openData (t.pTx.drop s.pTx.length).head?

/-- The responder's `TX` output in the step from `s` to `t`, for any value of the open bits. -/
def responderTxPort (openLen : BitVec 9) (openData : BitVec (257 * 8)) (s t : State) : TxPort :=
  TxPort.ofStep openLen openData (t.rTx.drop s.rTx.length).head?

end Sys2Proof.Machine
end

