-- ==== Sys2Proof/Tests/Slice0.lean ====
section
/-!
SUPPORT. Our own tests: the smoke test of WellFormed, one decoding per constructor, at most two one-step
tests per instruction, and a witness for the hypotheses of every statement that has some. Frames and
results are those of 95_test_vectors.md (the section is named at each group), which derives them from the
rules; the CRCs of the addresses 0x0F and 0x10 are computed by hand from 40_crc.md R181.
-/

namespace Sys2Proof.Tests

-- One theorem at a time: each kernel evaluation in parallel holds a thread of its own.
set_option Elab.async false

open Sys2Proof.Machine

/-! ### Helpers -/

/-- The next state, if there is one. -/
def okOf : Host.Outcome State Fault Refusal → Option State
  | .next t => some t
  | .fault _ => none
  | .refused _ => none

theorem okOf_some {o : Host.Outcome State Fault Refusal} {t : State} (h : okOf o = some t) :
    o = .next t := by
  cases o <;> simp_all [okOf]

/-- An outcome with a next state that shows `x` through `f` is a next state that shows it. -/
theorem okOf_map {α : Type} {o : Host.Outcome State Fault Refusal} {f : State → α} {x : α}
    (h : (okOf o).map f = some x) : ∃ t, o = .next t ∧ f t = x := by
  obtain ⟨t, ht, hx⟩ := Option.map_eq_some_iff.1 h
  exact ⟨t, okOf_some ht, hx⟩

/-- The default CRC parameters. -/
abbrev crc0 : CrcParams := CrcParams.default

/-- The default protocol parameters: the default CRC with the reference address map. -/
abbrev p0 : Protocol := Protocol.reference

/-- The reference address map. -/
abbrev map0 : AddrMap := AddrMap.reference

/-- An address map that moves the reference map's singletons above its point ranges and exchanges the
descriptor and the write range. -/
def map1 : AddrMap where
  itfVersion := 0xE0
  brdId := 0xE1
  brdStatus := 0xE2
  brdCmd := 0xE3
  batStatus := 0xE4
  batCharge := 0xE5
  svrMainAddr := 0xE6
  svrSecAddr := 0xE7
  dspWrite := 0xE8
  radioStatus := 0xE9
  radioStrength := 0xFF
  pointDescBase := 0x68
  readPointDataBase := 0x48
  writePointDataBase := 0x20

/-- Protocol parameters that differ from the reference ones in every value of 00_scope.md section 4. -/
def p1 : Protocol where
  crc := crc0
  addrs := map1
  maxPoints := 24
  fieldSizes := { pointName := 4, modelName := 6, manufName := 5, svrAddr := 8, dspMsg := 3 }
  status := { ok := 0x10, registerNotImplemented := 0x11, readOnly := 0x12, writeOnly := 0x13,
              error := 0x14 }
  dtCodes := ⟨0xA0, 0xA1, 0xA2, 0xA3, 0xA4, 0xA5, 0xA6, 0xA7, 0xA8, 0xA9⟩
  dtSizes := ⟨1, 1, 2, 2, 3, 3, 8, 8, 4, 8⟩
  access := { read := 0x80, write := 0x40 }
  caps := { display := 0x08, radioStatus := 0x10, batteryStatus := 0x20 }

/-- A sensor with one point, a u32 of 3 bytes that can be read and not written, under those parameters. -/
def c1 : Config :=
  { Config.reference with
    toProtocol := p1
    brd := { manufacturer := [1, 2, 3, 4, 5], model := [6, 7, 8, 9, 10, 11], sensorId := 7,
             hwRevision := 1, numOfPoints := 1, capabilities := 0 }
    svrMain := List.replicate 8 0x61
    svrSec := List.replicate 8 0x62
    points := [⟨⟨[0x50, 0x31, 0, 0], 0xA4, 0, 0x80, 1⟩, ⟨.u32, 0x030201⟩⟩] }

/-- The points of the reference sensor S0 as its responder knows them. -/
abbrev view0 : PointView := Config.reference.view

/-- The message "HELLO", padded. -/
def hello : List Byte :=
  [0x48, 0x45, 0x4C, 0x4C, 0x4F, 0, 0, 0, 0, 0, 0, 0, 0, 0, 0, 0, 0, 0, 0, 0, 0, 0, 0, 0]

/-- The frames S0 answers a request with, right after reset. -/
def reply (i : Instr) : Option (List Frame) := (okOf (exec i State.reset)).map (·.rTx)

/-- The values of S0's points after a request. -/
def values (i : Instr) : Option (List Value) :=
  (okOf (exec i State.reset)).map fun t => t.responder.ptDb.map DbEntry.value

/-- The reference machine with other poller registers. -/
def withP (p : Poller) : State := State.reset.withPoller p

/-- The poller with a frame in its receive buffer. -/
def holding (p : Poller) (f : Frame) : Poller :=
  { p with rxBuf := Memory.ofFrame f, rxCount := BitVec.ofNat 16 f.length }

/-- S0's descriptor `i`. -/
def desc0 (i : Nat) : PointDesc := (Config.reference.points.getD i default0).desc
where default0 : DbEntry := ⟨⟨List.replicate 8 0, 0, 0, 0, 0⟩, ⟨.u8, 0⟩⟩

/-- A poller that has discovered S0's three points and asks for the value of point 0. -/
def poller0 : Poller where
  state := 13
  brd := some Config.reference.brd
  ptCount := 3
  ptTable := [some ⟨desc0 0, none⟩, some ⟨desc0 1, none⟩, some ⟨desc0 2, none⟩]
    ++ List.replicate 29 none
  sched := [⟨0, 1, 1⟩, ⟨1, 2, 2⟩]
  due := [0, 1]
  cursor := 0
  retries := 1
  tickCnt := 0
  timeoutTicks := 4
  rxBuf := []
  rxCount := 0
  frameArrived := false

/-- Some registers of the poller, and the frames it has sent. -/
structure Seen where
  state : BitVec 4
  ptCount : BitVec 8
  cursor : BitVec 8
  retries : BitVec 8
  tickCnt : BitVec 32
  sent : List Frame
  deriving DecidableEq, Repr

/-- What a poller state leaves in those registers. -/
def after (i : Instr) (p : Poller) : Option Seen :=
  (okOf (exec i (withP p))).map fun t =>
    ⟨t.poller.state, t.poller.ptCount, t.poller.cursor, t.poller.retries, t.poller.tickCnt, t.pTx⟩

/-! ### WellFormed refuses ill-formed terms (41_codec.md R214, R215) -/

/-- A write to a point of the database without a value. -/
theorem test_wf_refuses_missing_value : Instr.wf p0 view0 (.writePointData 2 none) = false := by decide

/-- A value of another datatype than the point's. -/
theorem test_wf_refuses_wrong_datatype :
    Instr.wf p0 view0 (.writePointData 1 (some ⟨.u16, 7⟩)) = false := by decide

/-- A value for an index at the point count. -/
theorem test_wf_refuses_value_past_the_points :
    Instr.wf p0 view0 (.writePointData 3 (some ⟨.u8, 5⟩)) = false := by decide

/-- An address of the point ranges as an unmapped request, and one of another unmapped row. -/
theorem test_wf_refuses_mapped_address :
    Instr.wf p0 view0 (.unmappedHi 0x7F) = false ∧
      Instr.wf p0 view0 (.unmappedHi 0x0B) = false ∧
      Instr.wf { p0 with addrs := { map0 with brdId := 0x0F } } view0 (.unmappedLo0C 3) = false := by decide

/-- A display message one byte short, an index at MAX_POINTS, and a value above its width. -/
theorem test_wf_refuses_sizes :
    Instr.wf p0 view0 (.dspWrite (List.replicate 23 0)) = false ∧
      Instr.wf p0 view0 (.pointDesc 32) = false ∧ Instr.wf p0 view0 (.readPointData 32) = false ∧
      Instr.wf p0 view0 (.writePointData 32 none) = false ∧
      Instr.wf p0 view0 (.writePointData 2 (some ⟨.u8, 256⟩)) = false := by decide

/-- The well-formed forms beside them. -/
theorem test_wf_accepts : Instr.wf p0 view0 (.writePointData 1 (some ⟨.u32, 7⟩)) = true ∧
    Instr.wf p0 view0 (.writePointData 3 none) = true ∧ Instr.wf p0 view0 .fsmInit = true := by decide

/-! ### Decoding, one word per constructor (95_test_vectors.md 3.3; 30_encoding.md R170) -/

theorem test_decode_itfVersion :
    decode p0 view0 (.frame [0x02, 0x00, 0x62, 0x66]) = .ok .itfVersion := by
  decide +kernel

theorem test_decode_brdId :
    decode p0 view0 (.frame [0x02, 0x01, 0x43, 0x76]) = .ok .brdId := by
  decide +kernel

theorem test_decode_brdStatus :
    decode p0 view0 (.frame [0x02, 0x02, 0x20, 0x46]) = .ok .brdStatus := by
  decide +kernel

theorem test_decode_brdCmd :
    decode p0 view0 (.frame [0x03, 0x03, 0x01, 0x22, 0x1C]) = .ok (.brdCmd 1) := by
  decide +kernel

theorem test_decode_batStatus :
    decode p0 view0 (.frame [0x02, 0x04, 0xE6, 0x26]) = .ok .batStatus := by
  decide +kernel

theorem test_decode_batCharge :
    decode p0 view0 (.frame [0x02, 0x05, 0xC7, 0x36]) = .ok .batCharge := by
  decide +kernel

theorem test_decode_svrMainAddr :
    decode p0 view0 (.frame [0x02, 0x06, 0xA4, 0x06]) = .ok .svrMainAddr := by
  decide +kernel

theorem test_decode_svrSecAddr :
    decode p0 view0 (.frame [0x02, 0x07, 0x85, 0x16]) = .ok .svrSecAddr := by
  decide +kernel

theorem test_decode_dspWrite :
    decode p0 view0 (.frame [0x1A, 0x08, 0x48, 0x45, 0x4C, 0x4C, 0x4F, 0x00, 0x00, 0x00, 0x00, 0x00, 0x00, 0x00,
      0x00, 0x00, 0x00, 0x00, 0x00, 0x00, 0x00, 0x00, 0x00, 0x00, 0x00, 0x00, 0xB2, 0x9F]) = .ok (.dspWrite hello) := by
  decide +kernel

theorem test_decode_radioStatus :
    decode p0 view0 (.frame [0x03, 0x09, 0x01, 0xE9, 0xF3]) = .ok (.radioStatus 1) := by
  decide +kernel

theorem test_decode_radioStrength :
    decode p0 view0 (.frame [0x03, 0x0A, 0xC8, 0xDF, 0xEE]) = .ok (.radioStrength 200) := by
  decide +kernel

theorem test_decode_unmappedLo0B :
    decode p0 view0 (.frame [0x02, 0x0B, 0x09, 0xD7]) = .ok .unmappedLo0B := by
  decide +kernel

theorem test_decode_unmappedLo0C :
    decode p0 view0 (.frame [0x02, 0x0F, 0x8D, 0x97]) = .ok (.unmappedLo0C 3) := by
  decide +kernel

theorem test_decode_unmappedLo10 :
    decode p0 view0 (.frame [0x02, 0x10, 0x53, 0x74]) = .ok (.unmappedLo10 0) := by
  decide +kernel

theorem test_decode_unmappedHi :
    decode p0 view0 (.frame [0x02, 0x80, 0xEA, 0xF7]) = .ok (.unmappedHi 0x80) := by
  decide +kernel

theorem test_decode_pointDesc :
    decode p0 view0 (.frame [0x02, 0x20, 0x00, 0x42]) = .ok (.pointDesc 0) := by
  decide +kernel

theorem test_decode_readPointData :
    decode p0 view0 (.frame [0x02, 0x40, 0xA6, 0x2E]) = .ok (.readPointData 0) := by
  decide +kernel

theorem test_decode_writePointData :
    decode p0 view0 (.frame [0x06, 0x61, 0xD2, 0x04, 0x00, 0x00, 0xC7, 0xA7]) = .ok (.writePointData 1 (some ⟨.u32, 1234⟩)) := by
  decide +kernel

theorem test_decode_fsmInit : decode p0 view0 (.stateCode 0b0000#4) = .ok .fsmInit := by decide

theorem test_decode_fsmSendItfVer :
    decode p0 view0 (.stateCode 0b0001#4) = .ok .fsmSendItfVer := by
  decide

theorem test_decode_fsmWaitItfVerAns :
    decode p0 view0 (.stateCode 0b0010#4) = .ok .fsmWaitItfVerAns := by
  decide

theorem test_decode_fsmProcItfVer :
    decode p0 view0 (.stateCode 0b0011#4) = .ok .fsmProcItfVer := by
  decide

theorem test_decode_fsmSendBrdId :
    decode p0 view0 (.stateCode 0b0100#4) = .ok .fsmSendBrdId := by
  decide

theorem test_decode_fsmWaitBrdIdAns :
    decode p0 view0 (.stateCode 0b0101#4) = .ok .fsmWaitBrdIdAns := by
  decide

theorem test_decode_fsmProcBrdId :
    decode p0 view0 (.stateCode 0b0110#4) = .ok .fsmProcBrdId := by
  decide

theorem test_decode_fsmSendPtDesc :
    decode p0 view0 (.stateCode 0b0111#4) = .ok .fsmSendPtDesc := by
  decide

theorem test_decode_fsmWaitPtDescAns :
    decode p0 view0 (.stateCode 0b1000#4) = .ok .fsmWaitPtDescAns := by
  decide

theorem test_decode_fsmProcPtDesc :
    decode p0 view0 (.stateCode 0b1001#4) = .ok .fsmProcPtDesc := by
  decide

theorem test_decode_fsmBuildSch : decode p0 view0 (.stateCode 0b1010#4) = .ok .fsmBuildSch := by decide

theorem test_decode_fsmRunSch : decode p0 view0 (.stateCode 0b1011#4) = .ok .fsmRunSch := by decide

theorem test_decode_fsmSendPtVal :
    decode p0 view0 (.stateCode 0b1100#4) = .ok .fsmSendPtVal := by
  decide

theorem test_decode_fsmWaitPtValAns :
    decode p0 view0 (.stateCode 0b1101#4) = .ok .fsmWaitPtValAns := by
  decide

theorem test_decode_fsmProcPtVal :
    decode p0 view0 (.stateCode 0b1110#4) = .ok .fsmProcPtVal := by
  decide

/-- Rejected by name: the rows of 95_test_vectors.md 3.4.1 that raise an error, and code 15. -/
theorem test_decode_rejects :
    decode p0 view0 (.frame [0x02, 0x00]) = .error (.codec (.shortFrame 2)) ∧
    decode p0 view0 (.frame [0x00, 0x00, 0x00]) = .error (.codec (.malformed 0)) ∧
    decode p0 view0 (.frame [0x05, 0x00, 0x62]) = .error (.codec (.shortFrame 3)) ∧
    decode p0 view0 (.frame [0x02, 0x00, 0x62, 0x67]) =
      .error (.codec (.crcMismatch 0x6762)) ∧
    decode p0 view0 (.frame [0x03, 0x00, 0x01, 0x71, 0x49]) = .error (.codec (.malformed 1)) ∧
    decode p0 view0 (.frame [0x04, 0x61, 0xD2, 0x04, 0x6B, 0x55]) =
      .error (.codec (.malformed 2)) ∧
    decode p0 view0 (.stateCode 0b1111#4) = .error .illegalStateCode := by decide +kernel

/-- Under another address map the frame of address 0x00 is an unmapped request, and ITF_VERSION has the
address the map gives it. -/
theorem test_decode_other_map :
    decode { p0 with addrs := map1 } view0 (.frame [0x02, 0x00, 0x62, 0x66]) =
      .ok (.unmappedHi 0x00) ∧
    decode { p0 with addrs := map1 } view0 (encode { p0 with addrs := map1 } .itfVersion) =
      .ok .itfVersion ∧
    classify { p0 with addrs := map1 } 0x87 = .pointDesc 31 ∧ classify p1 0x48 = .readPoint 0 ∧
    classify p1 0x80 = .unmapped := by decide +kernel

/-- A display message has the configured size, and a write the configured size of its datatype. -/
theorem test_decode_other_sizes :
    decode p1 c1.view (.frame (sealFrame crc0 [0x05, 0xE8, 0x01, 0x02, 0x03])) =
      .ok (.dspWrite [0x01, 0x02, 0x03]) ∧
    decode p1 c1.view (.frame (sealFrame crc0 [0x05, 0x20, 0x01, 0x02, 0x03])) =
      .ok (.writePointData 0 (some ⟨.u32, 0x030201⟩)) ∧
    decode p1 c1.view (.frame (sealFrame crc0 [0x06, 0x20, 0x01, 0x02, 0x03, 0x04])) =
      .error (.codec (.malformed 4)) := by decide +kernel

/-! ### The opcode table's words -/

theorem test_tableWord_brdCmd : decodeTableWord 8 0x03 = some (.brdCmd 0) := by decide +kernel

theorem test_tableWord_write : decodeTableWord 8 0x61 = some (.writePointData 1 (some ⟨.u32, 0⟩)) := by
  decide +kernel

theorem test_tableWord_state : decodeTableWord 4 0xA = some .fsmBuildSch := by decide +kernel

/-- The very next step runs the placed request: it answers. -/
theorem test_fetchWord_request :
    (okOf (step (State.reset.withFetchWord 8 0x00))).map (·.rTx) =
      some [[0x04, 0x00, 0x01, 0x00, 0xC0, 0xF9]] := by decide +kernel

/-- The very next step runs the placed state: it sends. -/
theorem test_fetchWord_state :
    (okOf (step (State.reset.withFetchWord 4 1))).map (fun t => (t.pTx, t.poller.state)) =
      some ([[0x02, 0x00, 0x62, 0x66]], 2) := by decide +kernel

/-! ### Requests, one step each (95_test_vectors.md 3.3, 3.5) -/

theorem test_exec_itfVersion :
    reply .itfVersion = some [[0x04, 0x00, 0x01, 0x00, 0xC0, 0xF9]] := by
  decide +kernel

theorem test_exec_brdId :
    reply .brdId = some [[0x1A, 0x01, 0x41, 0x43, 0x4D, 0x45, 0x00, 0x00, 0x00, 0x00, 0x54, 0x48, 0x30, 0x31,
      0x00, 0x00, 0x00, 0x00, 0x78, 0x56, 0x34, 0x12, 0x02, 0x03, 0x05, 0x00, 0x36, 0x39]] := by
  decide +kernel

theorem test_exec_brdStatus :
    reply .brdStatus = some [[0x04, 0x02, 0x00, 0x00, 0x91, 0xA4]] := by
  decide +kernel

theorem test_exec_brdCmd : reply (.brdCmd 1) = some [[0x03, 0x03, 0x04, 0x87, 0x4C]] := by decide +kernel

theorem test_exec_batStatus :
    reply .batStatus = some [[0x04, 0x04, 0x01, 0x00, 0x00, 0x25]] := by
  decide +kernel

theorem test_exec_batCharge :
    reply .batCharge = some [[0x04, 0x05, 0x57, 0x00, 0x29, 0xB6]] := by
  decide +kernel

theorem test_exec_svrMainAddr :
    reply .svrMainAddr = some [[0x13, 0x06, 0x66, 0x64, 0x30, 0x30, 0x3A, 0x3A, 0x31, 0x00, 0x00, 0x00, 0x00, 0x00,
      0x00, 0x00, 0x00, 0x00, 0x00, 0x47, 0x7F]] := by
  decide +kernel

theorem test_exec_svrSecAddr :
    reply .svrSecAddr = some [[0x13, 0x07, 0x66, 0x64, 0x30, 0x30, 0x3A, 0x3A, 0x32, 0x00, 0x00, 0x00, 0x00, 0x00,
      0x00, 0x00, 0x00, 0x00, 0x00, 0x8C, 0xF7]] := by
  decide +kernel

theorem test_exec_dspWrite :
    reply (.dspWrite hello) = some [[0x03, 0x08, 0x04, 0x7D, 0x90]] := by
  decide +kernel

theorem test_exec_radioStatus :
    reply (.radioStatus 1) = some [[0x03, 0x09, 0x04, 0x4C, 0xA3]] := by
  decide +kernel

theorem test_exec_radioStrength :
    reply (.radioStrength 200) = some [[0x03, 0x0A, 0x04, 0x1F, 0xF6]] := by
  decide +kernel

theorem test_exec_unmappedLo0B :
    reply .unmappedLo0B = some [[0x03, 0x0B, 0x01, 0x8B, 0x95]] := by
  decide +kernel

theorem test_exec_unmappedLo0C :
    reply (.unmappedLo0C 3) = some [[0x03, 0x0F, 0x01, 0x4F, 0x59]] := by
  decide +kernel

theorem test_exec_unmappedLo10 :
    reply (.unmappedLo10 0) = some [[0x03, 0x10, 0x01, 0x02, 0x4A]] := by
  decide +kernel

theorem test_exec_unmappedHi :
    reply (.unmappedHi 0x80) = some [[0x03, 0x80, 0x01, 0xE9, 0x52]] := by
  decide +kernel

theorem test_exec_pointDesc :
    reply (.pointDesc 0) = some [[0x0F, 0x20, 0x54, 0x45, 0x4D, 0x50, 0x00, 0x00, 0x00, 0x00, 0x03, 0x01, 0x01, 0x01,
      0x00, 0x8B, 0x4D]] := by
  decide +kernel

theorem test_exec_readPointData :
    reply (.readPointData 0) = some [[0x05, 0x40, 0x83, 0xFF, 0x00, 0x3E, 0x2C]] := by
  decide +kernel

theorem test_exec_writePointData :
    reply (.writePointData 1 (some ⟨.u32, 1234⟩)) = some [[0x03, 0x61, 0x00, 0x4B, 0x61]] := by
  decide +kernel

/-- Index NP is not implemented. -/
theorem test_exec_pointDesc_absent :
    reply (.pointDesc 3) = some [[0x03, 0x23, 0x01, 0xC4, 0x1A]] := by
  decide +kernel

theorem test_exec_readPointData_writeOnly :
    reply (.readPointData 2) = some [[0x03, 0x42, 0x03, 0x9D, 0x02]] := by
  decide +kernel

/-- The write-back, and the read-only point that keeps its value. -/
theorem test_exec_writePointData_values :
    values (.writePointData 1 (some ⟨.u32, 1234⟩)) = some [⟨.s16, 0xFF83⟩, ⟨.u32, 1234⟩, ⟨.u8, 0⟩] ∧
    values (.writePointData 0 (some ⟨.s16, 7⟩)) = some [⟨.s16, 0xFF83⟩, ⟨.u32, 1000⟩, ⟨.u8, 0⟩] := by
  decide +kernel

/-- Under other parameters the answers carry the configured codes and sizes. -/
theorem test_exec_other_parameters :
    let body (i : Instr) := (okOf (exec i (State.boot c1))).map fun t =>
      t.rTx.map fun f => f.take (f.length - 2)
    c1.ok = true ∧
    body (.readPointData 0) = some [[0x06, 0x48, 0x01, 0x02, 0x03, 0x10]] ∧
    body (.writePointData 0 (some ⟨.u32, 9⟩)) = some [[0x03, 0x20, 0x12]] ∧
    body (.pointDesc 1) = some [[0x03, 0x69, 0x11]] ∧
    body .svrMainAddr =
      some [[0x0B, 0xE6, 0x61, 0x61, 0x61, 0x61, 0x61, 0x61, 0x61, 0x61, 0x10]] ∧
    body (.brdCmd 1) = some [[0x03, 0xE3, 0x14]] := by decide +kernel

/-! ### Poller states, one step each (95_test_vectors.md 3.6) -/

theorem test_exec_fsmInit :
    (okOf (exec .fsmInit (withP poller0))).map (fun t => (t.poller.state, t.poller.brd)) =
      some (1, none) ∧
    (okOf (exec .fsmInit (withP poller0))).map (fun t => (t.poller.due, t.poller.timeoutTicks)) =
      some ([], 0) := by decide +kernel

/-- `retries` is left alone. -/
theorem test_exec_fsmSendItfVer :
    after .fsmSendItfVer { poller0 with tickCnt := 9 } =
      some ⟨2, 3, 0, 1, 0, [[0x02, 0x00, 0x62, 0x66]]⟩ := by
  decide +kernel

/-- The flag is tested first. -/
theorem test_exec_fsmWaitItfVerAns :
    after .fsmWaitItfVerAns { poller0 with frameArrived := true, tickCnt := 4 } =
      some ⟨3, 3, 0, 1, 4, []⟩ := by
  decide +kernel

theorem test_exec_fsmProcItfVer :
    after .fsmProcItfVer (holding poller0 [0x04, 0x00, 0x01, 0x00, 0xC0, 0xF9]) =
      some ⟨4, 3, 0, 1, 0, []⟩ := by
  decide +kernel

theorem test_exec_fsmProcItfVer_mismatch :
    after .fsmProcItfVer (holding poller0 [0x04, 0x00, 0x02, 0x00, 0x93, 0xAC]) =
      some ⟨0, 3, 0, 1, 0, []⟩ := by
  decide +kernel

theorem test_exec_fsmSendBrdId :
    after .fsmSendBrdId poller0 =
      some ⟨5, 3, 0, 1, 0, [[0x02, 0x01, 0x43, 0x76]]⟩ := by
  decide +kernel

/-- A silent timeout aborts. -/
theorem test_exec_fsmWaitBrdIdAns :
    after .fsmWaitBrdIdAns { poller0 with tickCnt := 4 } =
      some ⟨4, 3, 0, 1, 5, []⟩ := by
  decide +kernel

/-- 32 points are accepted. -/
theorem test_exec_fsmProcBrdId :
    after .fsmProcBrdId (holding poller0 [0x1A, 0x01, 0x41, 0x43, 0x4D, 0x45, 0x00, 0x00,
      0x00, 0x00, 0x54, 0x48, 0x30, 0x31, 0x00, 0x00, 0x00, 0x00, 0x78, 0x56, 0x34, 0x12, 0x02, 0x20, 0x05, 0x00, 0xA0, 0xE6]) =
      some ⟨7, 0, 0, 1, 0, []⟩ := by
  decide +kernel

/-- 33 points are not. -/
theorem test_exec_fsmProcBrdId_tooMany :
    after .fsmProcBrdId (holding poller0 [0x1A, 0x01, 0x41, 0x43, 0x4D, 0x45, 0x00, 0x00,
      0x00, 0x00, 0x54, 0x48, 0x30, 0x31, 0x00, 0x00, 0x00, 0x00, 0x78, 0x56, 0x34, 0x12, 0x02, 0x21, 0x05, 0x00, 0x90, 0xD1]) =
      some ⟨0, 3, 0, 1, 0, []⟩ := by
  decide +kernel

theorem test_exec_fsmSendPtDesc :
    after .fsmSendPtDesc { poller0 with ptCount := 2, retries := 2 } =
      some ⟨8, 2, 0, 3, 0, [[0x02, 0x22, 0x42, 0x62]]⟩ := by
  decide +kernel

/-- Exhaustion is tested first. -/
theorem test_exec_fsmSendPtDesc_exhausted :
    after .fsmSendPtDesc { poller0 with retries := 3 } =
      some ⟨10, 3, 0, 3, 0, []⟩ := by
  decide +kernel

/-- Without an identity SEND_PT_DESC runs all the same, as the first instruction after reset. -/
theorem test_step_fsmSendPtDesc_reset : ∃ t, step (State.reset.withFetchWord 4 7) = .next t := by
  have e : step (State.reset.withFetchWord 4 7) = drive .sendPtDesc (handleSendPtDesc
    ((State.reset.withFetchWord 4 7).withEvents [])) := rfl
  rw [e]
  generalize (State.reset.withFetchWord 4 7).withEvents [] = s
  rcases handleSendPtDesc_cases s with ⟨-, h⟩ | ⟨-, h⟩ <;> rw [h]
  · exact ⟨_, rfl⟩
  · rcases countedSend_cases s.nextFree (s.cfg.addrs.pointDescBase + s.poller.ptCount) with
      ⟨-, h⟩ | ⟨-, h⟩ <;> rw [h] <;> exact ⟨_, rfl⟩

/-- Partial bytes do not end the wait early. -/
theorem test_exec_fsmWaitPtDescAns :
    after .fsmWaitPtDescAns { poller0 with tickCnt := 3, rxCount := 3 } =
      some ⟨8, 3, 0, 1, 4, []⟩ := by
  decide +kernel

theorem test_exec_fsmProcPtDesc :
    (okOf (exec .fsmProcPtDesc (withP (holding { poller0 with ptCount := 0 } [0x0F, 0x20, 0x54, 0x45,
      0x4D, 0x50, 0x00, 0x00, 0x00, 0x00, 0x03, 0x01, 0x01, 0x01, 0x00, 0x8B, 0x4D])))).map
      (fun t => (t.poller.ptCount, t.poller.retries, t.poller.ptTable[0]?)) =
      some (1, 0, some (some ⟨desc0 0, none⟩)) := by decide +kernel

/-- Another answer keeps the index and the attempts. -/
theorem test_exec_fsmProcPtDesc_error :
    after .fsmProcPtDesc (holding { poller0 with ptCount := 0 } [0x03, 0x20, 0x04, 0x32, 0x1F]) =
      some ⟨7, 0, 0, 1, 0, []⟩ := by
  decide +kernel

theorem test_exec_fsmBuildSch :
    (okOf (exec .fsmBuildSch (withP { poller0 with sched := [] }))).map
      (fun t => (t.poller.sched, t.poller.due, t.poller.retries, t.poller.state)) =
      some ([⟨0, 1, 1⟩, ⟨1, 2, 2⟩], [], 0, 11) := by decide +kernel

theorem test_exec_fsmRunSch :
    (okOf (exec .fsmRunSch (withP poller0))).map
      (fun t => (t.poller.sched, t.poller.due, t.poller.state)) =
      some ([⟨0, 1, 1⟩, ⟨1, 2, 1⟩], [0], 12) := by decide +kernel

theorem test_exec_fsmRunSch_idle :
    (okOf (exec .fsmRunSch (withP { poller0 with sched := [⟨0, 10, 3⟩] }))).map
      (fun t => (t.poller.sched, t.poller.due, t.poller.state)) =
      some ([⟨0, 10, 2⟩], [], 11) := by decide +kernel

theorem test_exec_fsmSendPtVal :
    after .fsmSendPtVal { poller0 with due := [31], retries := 0 } =
      some ⟨13, 3, 0, 1, 0, [[0x02, 0x5F, 0x78, 0xCD]]⟩ := by
  decide +kernel

/-- The fourth attempt resets the session. -/
theorem test_exec_fsmSendPtVal_exhausted :
    after .fsmSendPtVal { poller0 with retries := 3 } =
      some ⟨0, 3, 0, 4, 0, []⟩ := by
  decide +kernel

/-- A timeout with pending bytes stops the wait. -/
theorem test_exec_fsmWaitPtValAns :
    after .fsmWaitPtValAns { poller0 with tickCnt := 4, rxCount := 3 } =
      some ⟨14, 3, 0, 1, 5, []⟩ := by
  decide +kernel

theorem test_exec_fsmProcPtVal :
    (okOf (exec .fsmProcPtVal (withP (holding poller0 [0x05, 0x40, 0x83, 0xFF, 0x00, 0x3E,
      0x2C])))).map (fun t => (t.poller.ptTable[0]?, t.poller.cursor, t.poller.retries)) =
      some (some (some ⟨desc0 0, some ⟨.s16, 0xFF83⟩⟩), 1, 0) := by decide +kernel

/-- Past the end of the due list PROC_PT_VAL runs all the same, as the first instruction after reset. -/
theorem test_step_fsmProcPtVal_reset : (okOf (step (State.reset.withFetchWord 4 14))).map
    (fun t => (t.poller.state, t.poller.cursor, t.freeSeq)) = some (12, 0, 1) := by decide +kernel

/-- BUILD_SCH runs without the descriptors `pt_count` promises. -/
theorem test_exec_fsmBuildSch_undiscovered :
    ∃ t, exec .fsmBuildSch (withP { poller0 with ptTable := [] }) = .next t := ⟨_, rfl⟩

/-- Mismatch isolation (95_test_vectors.md 2.8): the answer for point 1 writes nothing. -/
theorem test_exec_fsmProcPtVal_mismatch :
    (okOf (exec .fsmProcPtVal (withP (holding poller0 [0x07, 0x41, 0xE8, 0x03, 0x00, 0x00, 0x00,
      0x09, 0x94])))).map (fun t => (t.poller.ptTable[0]?, t.poller.cursor, t.poller.retries)) =
      some (some (some ⟨desc0 0, none⟩), 1, 1) ∧
    (okOf (exec .fsmProcPtVal (withP (holding poller0 [0x07, 0x41, 0xE8, 0x03, 0x00, 0x00, 0x00,
      0x09, 0x94])))).map (fun t => t.poller.ptTable[1]?) = some (some (some ⟨desc0 1, none⟩)) := by
  decide +kernel

/-- Code 15 stops the machine on any event and on none (30_encoding.md R170). -/
theorem test_state15 :
    step (withP { poller0 with state := 15 }) = .fault .illegalState ∧
    step ((withP { poller0 with state := 15 }).withEvents [.pollerRxIdle]) = .fault .illegalState ∧
    step ((withP { poller0 with state := 15 }).withEvents [.reset]) = .fault .illegalState :=
  ⟨rfl, rfl, rfl⟩

/-! ### Environment views -/

/-- A perfect link delivers a sent request byte by byte, then the silence (60_exceptions.md R372). -/
theorem test_link_delivers :
    (okOf (stepOnPerfectLink { withP { poller0 with state := 1 } with events := [.tick] })).map
      (·.events) = some [.responderRxByte 0x02, .responderRxByte 0x00, .responderRxByte 0x62,
        .responderRxByte 0x66, .responderRxIdle] := by decide +kernel

/-- Two strobes in one cycle are two events (10_state.md R80). -/
theorem test_ports_events :
    PollerPorts.events ⟨true, true, 0x5A, false⟩ = [.tick, .pollerRxByte 0x5A] := by decide

/-- The open bits of `tx_data` keep any value, above the frame and without one. -/
theorem test_ports_tx :
    (TxPort.ofStep 9 0xAB05040302 (some [0x02, 0x00, 0x62, 0x66])).data = 0xAB66620002 ∧
      TxPort.ofStep 9 0xAB none = ⟨false, 9, 0xAB⟩ := by decide +kernel

/-- One `RESET` reaches every session in the step that takes it, before their own events. -/
theorem test_sessions_reset :
    (match Sessions.stepAt [(withP poller0).withEvents [.reset, .tick],
        (withP poller0).withEvents [.tick]] 0 with
      | some (.next ts) => ts.map fun t => (t.poller.state, t.events)
      | _ => []) = [(0, [.tick]), (0, [.tick])] := by decide +kernel

/-! ### The hypotheses of the statements can be met

One theorem per statement that has hypotheses, named after it; a clause that has its own hypotheses has its
own values, at a boundary of its range where it has one. -/

/-- A view with one point of datatype s16. -/
abbrev view1 : PointView := ⟨1, [some .s16]⟩

theorem witness_CrcDetectsEverySingleBitFlip :
    crc0.poly.getLsbD 0 = true ∧ 3 < [0x02, 0x00, 0x62, (0x66 : Byte)].length ∧ 7 < 8 ∧
      ({ Config.reference with crc := { crc0 with poly := 0x8004 } } : Config).crc.poly.getLsbD 0 =
        false := by decide

theorem witness_DecodeOfEncodeIsIdentity :
    p0.ok = true ∧ p1.ok = true ∧ (Instr.unmappedHi 0x00).wf p1 view0 = true ∧
      (Instr.writePointData 1 (some ⟨.u32, 0xFFFFFFFF⟩)).wf p0 view0 = true ∧
      (Instr.writePointData 31 none).wf p0 view0 = true := by decide

theorem witness_CodecRoundTrip :
    (p0.ok = true ∧ (Instr.radioStatus 255).wf p0 view0 = true ∧
      encode p0 (.radioStatus 1) = .frame [0x03, 0x09, 0x01, 0xE9, 0xF3]) ∧
    fieldsFit p0 view0 0x40 (.value ⟨.s16, 0x8000⟩) ∧ (0xFF : Byte) ≠ 0x00 :=
  ⟨by decide +kernel, ⟨_, rfl, by decide⟩, by decide⟩

/-- The first and the last byte of the flipped range, for a request and for a response. -/
theorem witness_FlippedBitRaisesCrcMismatch :
    crc0.poly.getLsbD 0 = true ∧ 3 < ([0x02, 0x00, 0x62, (0x66 : Byte)].getD 0 0).toNat + 2 ∧
      (∃ i, decodeRequest p0 view0 [0x02, 0x00, 0x62, 0x66] = .ok i) ∧
      (∃ r, unpackResponse p0 view0 [0x05, 0x40, 0x83, 0xFF, 0x00, 0x3E, 0x2C] = .ok r) := by
  refine ⟨by decide, by decide, ⟨.itfVersion, by decide +kernel⟩,
    ⟨⟨0x40, 0x00, .value ⟨.s16, 0xFF83⟩⟩, by decide +kernel⟩⟩

theorem witness_TrailingBytesAreNotRead :
    (2 ≤ ([0x02, 0x00, 0x62, 0x66, (0xFF : Byte)].getD 0 0).toNat ∧
      ([0x02, 0x00, 0x62, 0x66, (0xFF : Byte)].getD 0 0).toNat + 2 ≤
        [0x02, 0x00, 0x62, 0x66, (0xFF : Byte)].length) ∧
    (p0.ok = true ∧ Instr.itfVersion.wf p0 view0 = true ∧
      encode p0 .itfVersion = .frame [0x02, 0x00, 0x62, 0x66]) := by decide +kernel

/-- One buffer per check: two bytes, size 1, size 2 with three bytes, a wrong CRC, an invalid address, a
payload one byte long for ITF_VERSION, and a write of a u32. -/
theorem witness_UnpackRequestChecksInOrder :
    [0x02, (0x00 : Byte)].length < 3 ∧
    (3 ≤ [0x01, 0x00, (0x00 : Byte)].length ∧ ([0x01, 0x00, (0x00 : Byte)].getD 0 0).toNat < 2) ∧
    (2 ≤ ([0x02, 0x00, (0x62 : Byte)].getD 0 0).toNat ∧
      [0x02, 0x00, (0x62 : Byte)].length < ([0x02, 0x00, (0x62 : Byte)].getD 0 0).toNat + 2) ∧
    crc16 crc0 ([0x02, 0x00, 0x62, 0x67].take 2) ≠ (0x6762 : BitVec 16) ∧
    (crc16 crc0 ([0x03, 0x63, 0x05, 0x8C, 0x57].take 3) = 0x578C ∧
      validAddr p0 view0.count 0x63 = false) ∧
    (crc16 crc0 ([0x03, 0x00, 0x01, 0x71, 0x49].take 3) = 0x4971 ∧
      validAddr p0 view0.count 0x00 = true ∧ 3 - 2 ≠ reqLen p0 (classify p0 0x00) .u8) ∧
    (crc16 crc0 ([0x06, 0x61, 0xD2, 0x04, 0x00, 0x00, 0xC7, 0xA7].take 6) = 0xA7C7 ∧
      validAddr p0 view0.count 0x61 = true ∧ classify p0 0x61 = .writePoint 1 ∧
      view0.dtOf (1 : BitVec 8).toNat = some .u32 ∧
      6 - 2 = reqLen p0 (classify p0 0x61) .u32) := by decide +kernel

/-- One buffer per check: two bytes, size 2, size 3 with four bytes, a wrong CRC, a non-OK status with a
payload byte and without, an OK response to an unmapped address, one of an undiscovered point, one of the
wrong length, a descriptor with type code 10, and a value that decodes. -/
theorem witness_UnpackResponseChecksInOrder :
    [0x03, (0x00 : Byte)].length < 3 ∧
    (3 ≤ [0x02, 0x00, (0x62 : Byte)].length ∧ ([0x02, 0x00, (0x62 : Byte)].getD 0 0).toNat < 3) ∧
    (3 ≤ ([0x03, 0x42, 0x03, (0x9D : Byte)].getD 0 0).toNat ∧
      [0x03, 0x42, 0x03, (0x9D : Byte)].length < 3 + 2) ∧
    crc16 crc0 ([0x03, 0x42, 0x03, 0x9D, 0x03].take 3) ≠ (0x039D : BitVec 16) ∧
    (unpackResponse p0 view0 (sealFrame crc0 [0x04, 0x00, 0x07, 0x01]) = .error (.malformed 1) ∧
      unpackResponse p0 view0 [0x03, 0x42, 0x03, 0x9D, 0x02] = .ok ⟨0x42, 0x03, .none⟩ ∧
      unpackResponse p0 view0 (sealFrame crc0 [0x03, 0x0B, 0x00]) = .error (.malformed 0x0B) ∧
      unpackResponse p0 view0 (sealFrame crc0 [0x04, 0x43, 0x01, 0x00]) =
        .error (.malformed 0x43) ∧
      unpackResponse p0 view0 (sealFrame crc0 [0x04, 0x40, 0x01, 0x00]) = .error (.malformed 1) ∧
      unpackResponse p0 view0 (sealFrame crc0 [0x0F, 0x20, 0, 0, 0, 0, 0, 0, 0, 0, 10, 0, 0, 0, 0]) =
        .error (.malformed 10) ∧
      unpackResponse p0 view0 [0x05, 0x40, 0x83, 0xFF, 0x00, 0x3E, 0x2C] =
        .ok ⟨0x40, 0x00, .value ⟨.s16, 0xFF83⟩⟩) := by decide +kernel

/-- The reference map, another one, and addresses of each class. -/
theorem witness_AddressDecoderIsTheRangeTest :
    p0.addrs.ok p0.maxPoints = true ∧ p1.addrs.ok p1.maxPoints = true := by decide

theorem witness_DescriptorTypeCodeIsChecked :
    p0.ok = true ∧ classify p0 0x3F = .pointDesc 31 ∧
      (desc0 0).fits p0.fieldSizes = true ∧ Datatype.ofCode p0 10 = none ∧
      Datatype.ofCode p0 9 ≠ none := by decide

theorem witness_NonOkResponseWithPayloadIsMalformed :
    (0x01 : Byte) ≠ p0.status.ok ∧ List.replicate 252 (0x00 : Byte) ≠ [] ∧
      (List.replicate 252 (0x00 : Byte)).length ≤ 252 := by decide +kernel

theorem witness_ResponseShapeNeedsAKnownAddress :
    p0.ok = true ∧ (0x07 : Byte) ≠ p0.status.ok ∧ ([] : List Byte).length ≤ 252 ∧
      classify p0 0x0B = .unmapped ∧ classify p0 0xFF = .unmapped ∧
      (view1.dtOf (1 : BitVec 8).toNat = none ∧ classify p0 0x41 = .readPoint 1) ∧
      (view1.dtOf (31 : BitVec 8).toNat = none ∧ classify p0 0x7F = .writePoint 31) ∧
      classify p0 0x3F = .pointDesc 31 ∧ (desc0 0).fits p0.fieldSizes = true ∧
      Datatype.ofCode p0 (desc0 0).dtype ≠ none := by decide

/-- Both ends of each signed range. -/
theorem witness_SignedValuesMarshal :
    ∀ dt ∈ [Datatype.s8, .s16, .s32, .s64], dt.isSigned = true ∧ 1 ≤ dt.size p0 ∧
      (-(2 ^ (8 * dt.size p0 - 1)) : Int) ≤ -(2 ^ (8 * dt.size p0 - 1)) ∧
      (2 ^ (8 * dt.size p0 - 1) - 1 : Int) < 2 ^ (8 * dt.size p0 - 1) := by decide

/-- The index at NP and the last index. -/
theorem witness_InvalidAddressesAnswerNotImplemented :
    classify State.reset.cfg.toProtocol 0x0B = .unmapped ∧
      classify State.reset.cfg.toProtocol (0x0C + (3 : BitVec 2).setWidth 8) = .unmapped ∧
      classify State.reset.cfg.toProtocol (0x10 + (15 : BitVec 4).setWidth 8) = .unmapped ∧
      classify State.reset.cfg.toProtocol 0xFF = .unmapped ∧
      State.reset.cfg.brd.numOfPoints.toNat ≤ (3 : BitVec 8).toNat ∧
      State.reset.cfg.brd.numOfPoints.toNat ≤ (31 : BitVec 8).toNat ∧
      (31 : BitVec 8).toNat < State.reset.cfg.maxPoints := by decide

theorem witness_PointDescAnswersTheDescriptor :
    (2 : BitVec 8).toNat < State.reset.cfg.brd.numOfPoints.toNat ∧
      State.reset.responder.ptDb[(2 : BitVec 8).toNat]? = some ⟨desc0 2, ⟨.u8, 0⟩⟩ := by decide

/-- A readable and a write-only point. -/
theorem witness_ReadPointDataAnswersByAccessRights :
    ((0 : BitVec 8).toNat < State.reset.cfg.brd.numOfPoints.toNat ∧
      State.reset.responder.ptDb[(0 : BitVec 8).toNat]? = some ⟨desc0 0, ⟨.s16, 0xFF83⟩⟩ ∧
      (desc0 0).accessRights &&& 0x01 ≠ 0) ∧
    ((2 : BitVec 8).toNat < State.reset.cfg.brd.numOfPoints.toNat ∧
      State.reset.responder.ptDb[(2 : BitVec 8).toNat]? = some ⟨desc0 2, ⟨.u8, 0⟩⟩ ∧
      (desc0 2).accessRights &&& 0x01 = 0) := by decide

/-- A writable and a read-only point. -/
theorem witness_WritePointDataWritesByAccessRights :
    ((2 : BitVec 8).toNat < State.reset.cfg.brd.numOfPoints.toNat ∧
      State.reset.responder.ptDb[(2 : BitVec 8).toNat]? = some ⟨desc0 2, ⟨.u8, 0⟩⟩ ∧
      Datatype.ofCode p0 (desc0 2).dtype = some (⟨.u8, 255⟩ : Value).dt ∧
      (⟨.u8, 255⟩ : Value).fits p0 = true ∧
      (desc0 2).accessRights &&& 0x02 ≠ 0) ∧
    ((0 : BitVec 8).toNat < State.reset.cfg.brd.numOfPoints.toNat ∧
      State.reset.responder.ptDb[(0 : BitVec 8).toNat]? = some ⟨desc0 0, ⟨.s16, 0xFF83⟩⟩ ∧
      Datatype.ofCode p0 (desc0 0).dtype = some (⟨.s16, 7⟩ : Value).dt ∧
      (⟨.s16, 7⟩ : Value).fits p0 = true ∧
      (desc0 0).accessRights &&& 0x02 = 0) := by decide

theorem witness_OnlyAnAcceptedWriteChangesTheResponder :
    requestAddr map0 (.writePointData 1 (some ⟨.u32, 7⟩)) ≠ none ∧
      ∃ t, exec (.writePointData 1 (some ⟨.u32, 7⟩)) State.reset = .next t := by
  refine ⟨by decide, ?_⟩
  obtain ⟨t, ht, -⟩ := okOf_map (f := fun t => t.poller.state) (x := 0)
    (o := exec (.writePointData 1 (some ⟨.u32, 7⟩)) State.reset) (by decide +kernel)
  exact ⟨t, ht⟩

theorem witness_databaseOk : State.reset.databaseOk := ⟨rfl, by decide, rfl, rfl⟩

theorem witness_ResponsesEchoTheAddress :
    State.reset.cfg.ok = true ∧ State.reset.databaseOk ∧ requestAddr map0 (.pointDesc 31) = some 0x3F ∧
    ∃ t, exec (.pointDesc 31) State.reset = .next t := by
  refine ⟨by decide, witness_databaseOk, by decide, ?_⟩
  obtain ⟨t, ht, -⟩ := okOf_map (f := fun t => t.poller.state) (x := 0)
    (o := exec (.pointDesc 31) State.reset) (by decide +kernel)
  exact ⟨t, ht⟩

theorem witness_RequestMeaningsAreThePipeline :
    State.reset.cfg.ok = true ∧ State.reset.databaseOk ∧
      (Instr.readPointData 2).wf p0 State.reset.responderView = true ∧
      requestAddr map0 (.readPointData 2) = some 0x42 :=
  ⟨by decide, witness_databaseOk, by decide, by decide⟩

theorem witness_RepeatedRequestIsIdempotent : requestAddr map0 .batCharge ≠ none ∧
    ∃ t, exec .batCharge State.reset = .next t := ⟨by decide, _, rfl⟩

/-- The four clauses, at the armed timeout and one past it. -/
theorem witness_WaitStatesRunWaitAns :
    ((.fsmWaitPtValAns, 13, 14, 12) : Instr × BitVec 4 × BitVec 4 × BitVec 4) ∈
      [(.fsmWaitItfVerAns, 2, 3, 1), (.fsmWaitBrdIdAns, 5, 6, 4), (.fsmWaitPtDescAns, 8, 9, 7),
        (.fsmWaitPtValAns, 13, 14, 12)] ∧
    (withP { poller0 with frameArrived := true }).poller.frameArrived = true ∧
    (poller0.frameArrived = false ∧ (3 : BitVec 32) + 1 ≤ poller0.timeoutTicks) ∧
    (poller0.timeoutTicks < (4 : BitVec 32) + 1 ∧ (1 : BitVec 16) ≠ 0) ∧
    (poller0.timeoutTicks < (4 : BitVec 32) + 1 ∧ poller0.rxCount = 0) := by decide

/-- The supported version, and an empty buffer. -/
theorem witness_ProcItfVerChecksTheVersion :
    (∃ (s : State) (buf : Frame), s.pollerFrame = some buf ∧ unpackResponse s.cfg.toProtocol s.pollerView buf =
      .ok ⟨s.cfg.addrs.itfVersion, s.cfg.status.ok, .version s.cfg.itfVersionSupported⟩) ∧
    (∃ (s : State) (buf : Frame), s.pollerFrame = some buf ∧ unpackResponse s.cfg.toProtocol s.pollerView buf ≠
      .ok ⟨s.cfg.addrs.itfVersion, s.cfg.status.ok, .version s.cfg.itfVersionSupported⟩) :=
  ⟨⟨withP (holding poller0 [0x04, 0x00, 0x01, 0x00, 0xC0, 0xF9]), _, rfl, by decide +kernel⟩,
    ⟨State.reset, _, rfl, by decide +kernel⟩⟩

/-- The S0 board identity response with another point count and its CRC. -/
def idFrame (n lo hi : Byte) : Frame :=
  [0x1A, 0x01, 0x41, 0x43, 0x4D, 0x45, 0x00, 0x00, 0x00, 0x00, 0x54, 0x48, 0x30, 0x31, 0x00, 0x00,
    0x00, 0x00, 0x78, 0x56, 0x34, 0x12, 0x02, n, 0x05, 0x00, lo, hi]

/-- The S0 board identity with another point count. -/
def idOf (n : Byte) : BoardId := { Config.reference.brd with numOfPoints := n }

/-- Point counts 1 and 32, 0 and 33, and a buffer that holds no identity. -/
theorem witness_ProcBrdIdChecksThePointCount :
    unpackResponse p0 view0 (idFrame 1 0x56 0x57) = .ok ⟨0x01, 0x00, .board (idOf 1)⟩ ∧
    unpackResponse p0 view0 (idFrame 32 0xA0 0xE6) = .ok ⟨0x01, 0x00, .board (idOf 32)⟩ ∧
    unpackResponse p0 view0 (idFrame 0 0x66 0x60) = .ok ⟨0x01, 0x00, .board (idOf 0)⟩ ∧
    unpackResponse p0 view0 (idFrame 33 0x90 0xD1) = .ok ⟨0x01, 0x00, .board (idOf 33)⟩ ∧
    (State.reset.pollerFrame = some [] ∧ ∀ b, unpackResponse State.reset.cfg.toProtocol
      State.reset.pollerView [] ≠ .ok ⟨0x01, 0x00, .board b⟩) :=
  ⟨by decide +kernel, by decide +kernel, by decide +kernel, by decide +kernel, rfl,
    fun _ h => by cases h⟩

/-- The last index of S0, the attempts at their limit and one past it; and a poller without an identity. -/
theorem witness_SendPtDescAsksForTheNextDescriptor :
    poller0.brd = some Config.reference.brd ∧ State.reset.poller.brd = none ∧
    Config.reference.brd.numOfPoints ≤ poller0.ptCount ∧
    ((2 : BitVec 8) < Config.reference.brd.numOfPoints ∧
      Config.reference.maxRetries < ((3 : BitVec 8) + 1).toNat ∧
      ((2 : BitVec 8) + 1).toNat ≤ Config.reference.maxRetries) := by decide

/-- A machine whose poller asks for descriptor 0 and holds the frame `f`. -/
def descState (f : Frame) : State := withP (holding { poller0 with ptCount := 0 } f)

/-- The descriptor asked for, an answer of another shape to an index past the table, an empty buffer. -/
theorem witness_ProcPtDescStoresTheDescriptor :
    (∃ buf d, (descState [0x0F, 0x20, 0x54, 0x45, 0x4D, 0x50, 0x00, 0x00, 0x00, 0x00, 0x03, 0x01,
        0x01, 0x01, 0x00, 0x8B, 0x4D]).pollerFrame = some buf ∧
      unpackResponse p0 (descState []).pollerView buf = .ok ⟨0x20 + 0, 0x00, .desc d⟩) ∧
    (let s := withP (holding { poller0 with ptCount := 0xE0 } [0x04, 0x00, 0x01, 0x00, 0xC0, 0xF9]);
      s.pollerFrame = some [0x04, 0x00, 0x01, 0x00, 0xC0, 0xF9] ∧
      unpackResponse p0 s.pollerView [0x04, 0x00, 0x01, 0x00, 0xC0, 0xF9] =
        .ok ⟨0x20 + 0xE0, 0x00, .version 1⟩ ∧ ∀ d : PointDesc, RspFields.version 1 ≠ .desc d) ∧
    ((descState []).pollerFrame = some [] ∧ ∀ f : RspFields,
      unpackResponse p0 (descState []).pollerView [] ≠ .ok ⟨0x20 + 0, 0x00, f⟩) :=
  ⟨⟨_, desc0 0, rfl, by decide +kernel⟩,
    ⟨by decide +kernel, by decide +kernel, fun _ h => by cases h⟩, rfl, fun _ h => by cases h⟩

theorem witness_tableOk : poller0.tableOk p0 := by
  refine ⟨rfl, by decide, fun k h => ?_⟩
  have h0 : (⟨desc0 0, none⟩ : PointEntry).ok p0 := ⟨by decide, by decide, by simp⟩
  have h1 : (⟨desc0 1, none⟩ : PointEntry).ok p0 := ⟨by decide, by decide, by simp⟩
  have h2 : (⟨desc0 2, none⟩ : PointEntry).ok p0 := ⟨by decide, by decide, by simp⟩
  change k < 32 at h
  interval_cases k
  · exact ⟨_, rfl, h0⟩
  · exact ⟨_, rfl, h1⟩
  · exact ⟨_, rfl, h2⟩
  all_goals rfl

/-- A countdown that ends on this tick, and one that does not. -/
theorem witness_RunSchCollectsTheDuePoints :
    (poller0.sched.filterMap fun e => if e.countdown = 1 then some e.idx else none) ≠ [] ∧
    ([(⟨0, 10, 3⟩ : SchedEntry)].filterMap fun e =>
      if e.countdown = 1 then some e.idx else none) = [] := by decide

theorem witness_SendPtValAsksForTheDuePoint :
    ({ poller0 with cursor := 2 } : Poller).due.length ≤ (2 : BitVec 8).toNat ∧
    (poller0.due[poller0.cursor.toNat]? = some 0 ∧
      Config.reference.maxRetries < ((3 : BitVec 8) + 1).toNat ∧
      ((2 : BitVec 8) + 1).toNat ≤ Config.reference.maxRetries) := by decide

/-- The four kinds of buffer, while point 0 is asked for; the end of the due list; and an index past the table
whose address answers with another shape. -/
theorem witness_ProcPtValStoresTheMatchedValue :
    State.reset.poller.due[State.reset.poller.cursor.toNat]? = none ∧
    (let s := withP (holding { poller0 with due := [0xC0] } [0x04, 0x00, 0x01, 0x00, 0xC0, 0xF9]);
      s.poller.due[s.poller.cursor.toNat]? = some 0xC0 ∧
      s.pollerFrame = some [0x04, 0x00, 0x01, 0x00, 0xC0, 0xF9] ∧
      unpackResponse p0 s.pollerView [0x04, 0x00, 0x01, 0x00, 0xC0, 0xF9] =
        .ok ⟨0x40 + 0xC0, 0x00, .version 1⟩ ∧
      s.cfg.maxPoints ≤ (0xC0 : BitVec 8).toNat ∧ s.poller.ptTable.length = s.cfg.maxPoints) ∧
    poller0.due[poller0.cursor.toNat]? = some 0 ∧ p0.ok = true ∧ (0 : BitVec 8).toNat < 32 ∧
    (withP poller0).pollerFrame = some [] ∧
    unpackResponse p0 (withP poller0).pollerView [] = .error (.shortFrame 0) ∧
    unpackResponse p0 (withP poller0).pollerView [0x03, 0x41, 0x01, 0x8C, 0x77] =
      .ok ⟨0x41, 0x01, .none⟩ ∧
    unpackResponse p0 (withP poller0).pollerView [0x03, 0x40, 0x03, 0xFF, 0x64] =
      .ok ⟨0x40 + 0, 0x03, .none⟩ ∧
    unpackResponse p0 (withP poller0).pollerView [0x05, 0x40, 0x83, 0xFF, 0x00, 0x3E, 0x2C] =
      .ok ⟨0x40 + 0, 0x00, .value ⟨.s16, 0xFF83⟩⟩ := by decide +kernel

theorem witness_DueListIsTheDivisors :
    (withP poller0).buildSchedule = [⟨0, 1, 1⟩, ⟨1, 2, 2⟩] ∧ 1 ≤ 1 := by decide +kernel

/-- The reference machine with `n` ticks to come. -/
def ticking (p : Poller) (n : Nat) : State := (withP p).withEvents (List.replicate n .tick)

theorem witness_UnansweredAttemptTakesTimeoutTicks :
    ((7, 8) : BitVec 4 × BitVec 4) ∈ sendWaitPairs ∧
      let s := ticking { poller0 with state := 7, ptCount := 0 } 6
      s.cfg.ok = true ∧ s.poller.state = 7 ∧ (∃ s', step s = .next s' ∧ s'.poller.state = 8) ∧
        s.events = List.replicate (s.cfg.timeoutTicks + 2) .tick ++ [] ∧
        1 ≤ 5 ∧ 5 ≤ s.cfg.timeoutTicks + 1 :=
  ⟨by decide, by decide, rfl, okOf_map (by decide +kernel), by decide, by decide, by decide⟩

/-- Discovery of point 0 and acquisition of point 0, both at the first attempt. -/
theorem witness_UnansweredRequestResetsTheSession :
    (let s := ticking { poller0 with state := 7, ptCount := 0, retries := 0 } 19;
      s.cfg.ok = true ∧ s.poller.retries = 0 ∧ s.poller.state = 7 ∧
        (∃ b, s.poller.brd = some b ∧ s.poller.ptCount < b.numOfPoints) ∧
        s.events = List.replicate (s.cfg.maxRetries * (s.cfg.timeoutTicks + 2) + 1) .tick ++ []) ∧
    (let s := ticking { poller0 with state := 12, retries := 0 } 19;
      s.cfg.ok = true ∧ s.poller.retries = 0 ∧ s.poller.state = 12 ∧
        (∃ i, s.poller.due[s.poller.cursor.toNat]? = some i ∧ 0x40 = 0x40 + i) ∧
        s.events = List.replicate (s.cfg.maxRetries * (s.cfg.timeoutTicks + 2) + 1) .tick ++ []) :=
  ⟨⟨by decide, rfl, rfl, ⟨_, rfl, by decide⟩, by decide⟩,
    ⟨by decide, rfl, rfl, ⟨0, by decide, by decide⟩, by decide⟩⟩

/-- The invariant holds in the middle of an acquisition. -/
theorem inv_session : (withP poller0).Inv where
  config := by decide
  buffers := ⟨Memory.wf_nil, Memory.wf_nil, by decide, by decide⟩
  database := witness_databaseOk
  phase := by
    refine ⟨by decide, fun b hb => by cases hb; decide, ?_,
      fun _ => ⟨_, rfl, by decide, by decide, by decide, fun _ => ?_⟩, fun _ => by decide⟩
    · rintro ⟨f, hf, h⟩
      simp only [handshakeStates, List.mem_cons, List.not_mem_nil, or_false] at hf
      rcases hf with rfl | rfl | rfl | rfl | rfl | rfl <;> cases h
    · rename_i h
      obtain ⟨f, hf, h⟩ := h
      simp only [List.mem_cons, List.not_mem_nil, or_false] at hf
      rcases hf with rfl | rfl <;> cases h
  table := witness_tableOk
  sched := by
    refine ⟨by decide, by decide, fun e he => ?_⟩
    rcases List.mem_cons.1 he with rfl | he
    · exact ⟨by decide, by decide, by decide, ⟨desc0 0, none⟩, rfl, by decide, by decide⟩
    · rcases List.mem_singleton.1 he with rfl
      exact ⟨by decide, by decide, by decide, ⟨desc0 1, none⟩, rfl, by decide, by decide⟩
  due := ⟨by decide, by decide, fun _ => by decide⟩
  counters := ⟨by decide, by decide, .inr (by decide), fun _ => ⟨by decide, by decide⟩,
    fun _ => by decide⟩

/-- The invariant does not speak of the events to come. -/
theorem inv_withEvents {s : State} (h : s.Inv) (es : List Event) : (s.withEvents es).Inv :=
  ⟨h.config, h.buffers, h.database, h.phase, h.table, h.sched, h.due, h.counters⟩

theorem inv_ticking (n : Nat) : (ticking poller0 n).Inv := inv_withEvents inv_session _

/-- Five ticks with bytes and silences of both sides between them. -/
def busyWait : List Event :=
  [.tick, .pollerRxByte 0x05, .responderRxIdle, .tick, .tick, .responderRxByte 0x02, .tick, .tick]

theorem witness_WaitStatesAreBounded :
    let s := (withP poller0).withEvents busyWait
    s.Inv ∧ s.poller.stateIn waitStates ∧ (∀ e ∈ busyWait, e.isTickOrLink = true) ∧
      busyWait.count .tick = s.cfg.timeoutTicks + 1 ∧ s.events = busyWait ++ [] :=
  ⟨inv_withEvents inv_session _, ⟨.waitPtValAns, by decide, rfl⟩, by decide, by decide, rfl⟩

/-- A poller whose board offers no point to schedule. -/
def idlePoller : Poller :=
  { Poller.reset 32 with state := 11, brd := some (idOf 1), timeoutTicks := 4 }

theorem inv_idle : (withP idlePoller).Inv where
  config := by decide
  buffers := ⟨Memory.wf_nil, Memory.wf_nil, by decide, by decide⟩
  database := witness_databaseOk
  phase := by
    refine ⟨by decide, fun b hb => by cases hb; decide, ?_,
      fun _ => ⟨_, rfl, by decide, by decide, by decide, fun h => ?_⟩, fun h => ?_⟩
    · exact fun _ => rfl
    · obtain ⟨f, hf, h⟩ := h
      simp only [List.mem_cons, List.not_mem_nil, or_false] at hf
      rcases hf with rfl | rfl <;> cases h
    · obtain ⟨f, hf, h⟩ := h
      simp only [List.mem_cons, List.not_mem_nil, or_false] at hf
      rcases hf with rfl | rfl <;> cases h
  table := ⟨rfl, by decide, fun k h => by
    have hk : ¬ k < (withP idlePoller).poller.ptCount.toNat := Nat.not_lt_zero k
    rw [if_neg hk]
    exact List.getElem?_replicate_of_lt h⟩
  sched := ⟨.nil, by decide, fun _ h => nomatch h⟩
  due := ⟨.slnil, by decide, fun _ => by decide⟩
  counters := ⟨by decide, by decide, .inr (by decide), fun h => (by
    obtain ⟨f, hf, h⟩ := h
    simp only [waitStates, List.mem_cons, List.not_mem_nil, or_false] at hf
    rcases hf with rfl | rfl | rfl | rfl <;> cases h), fun _ => by decide⟩

/-- A list with sensor-side events between the ticks, and one of the poller's side alone. -/
theorem witness_EmptyScheduleIdlesForever :
    (let s := (withP idlePoller).withEvents (busyWait ++ [.reset]);
      s.cfg.ok = true ∧ s.poller.state = 11 ∧ s.poller.sched = [] ∧ .reset ∉ busyWait ∧
        s.events = busyWait ++ [.reset] ∧ s.Inv ∧ (∀ e ∈ busyWait, e.isTickOrLink = true) ∧
        1 ≤ busyWait.length ∧ (∃ t, run 1 s = .next t ∧ t.poller.state = 11) ∧
        .tick ∈ busyWait.take 1) ∧
    (∀ e ∈ [Event.tick, .pollerRxByte 0x05, .tick], e.isPollers = true) :=
  ⟨⟨by decide, rfl, rfl, by decide, rfl, inv_withEvents inv_idle _, by decide, by decide,
    okOf_map (by decide +kernel), by decide⟩, by decide⟩

theorem witness_TickRunsTheDecodedState :
    let s := ticking poller0 1
    s.cfg.ok = true ∧ s.events = .tick :: [] ∧
      decode p0 view0 (.stateCode s.poller.state) = .ok .fsmWaitPtValAns :=
  ⟨by decide, rfl, by decide⟩

/-- The reference machine whose responder holds frame `f`, with `RX_IDLE` to come. -/
def idling (f : Frame) : State :=
  (State.reset.withResponder { State.reset.responder with
    srxBuf := Memory.ofFrame f, srxCount := BitVec.ofNat 16 f.length }).withEvents [.responderRxIdle]

theorem witness_RxIdleRunsTheDecodedRequest :
    let s := idling [0x02, 0x00, 0x62, 0x66]
    s.cfg.ok = true ∧ s.poller.state ≠ 15 ∧ s.events = .responderRxIdle :: [] ∧ s.responder.srxCount ≠ 0 ∧
      s.responderFrame = some [0x02, 0x00, 0x62, 0x66] ∧
      decode s.cfg.toProtocol s.responderView (.frame [0x02, 0x00, 0x62, 0x66]) = .ok .itfVersion := by
  decide +kernel

/-- An empty buffer, and one byte. -/
theorem witness_BadFramesAreDiscarded :
    ((idling []).cfg.ok = true ∧ (idling []).poller.state ≠ 15 ∧ (idling []).events = .responderRxIdle :: [] ∧
      (idling []).responder.srxCount = 0) ∧
    ((idling [0x02]).responder.srxCount ≠ 0 ∧ (idling [0x02]).responderFrame = some [0x02] ∧
      decodeRequest p0 (idling [0x02]).responderView [0x02] = .error (.shortFrame 1)) := by
  decide +kernel

/-- Room for one byte, no room, silence with bytes, silence without. -/
theorem witness_PollerReceivesBytes :
    State.reset.cfg.ok = true ∧ poller0.state ≠ 15 ∧ Memory.wf poller0.rxBuf ∧
    ((withP { poller0 with rxCount := 256 }).withEvents [.pollerRxByte 0x02]).events =
      .pollerRxByte 0x02 :: [] ∧
    (256 : BitVec 16).toNat < State.reset.cfg.rxBufSize ∧
    State.reset.cfg.rxBufSize ≤ (257 : BitVec 16).toNat ∧
    ((withP poller0).withEvents [.pollerRxIdle]).events = .pollerRxIdle :: [] ∧
    (1 : BitVec 16) ≠ 0 ∧ poller0.rxCount = 0 := by decide

theorem witness_ResponderReceivesBytes :
    State.reset.cfg.ok = true ∧ State.reset.poller.state ≠ 15 ∧ Memory.wf State.reset.responder.srxBuf ∧
    (State.reset.withEvents [.responderRxByte 0xFF]).events = .responderRxByte 0xFF :: [] ∧
    (256 : BitVec 16).toNat < State.reset.cfg.rxBufSize ∧
    State.reset.cfg.rxBufSize ≤ (257 : BitVec 16).toNat := by decide

/-- A board register, a server address of its size and one byte short, a value of the point's datatype, one
of another datatype, one above its width, and an index at NP. -/
theorem witness_AppSetWritesOneField :
    State.reset.cfg.ok = true ∧ State.reset.poller.state ≠ 15 ∧ State.reset.databaseOk ∧
    (State.reset.withEvents [.appSet (.batCharge 3)]).events = .appSet (.batCharge 3) :: [] ∧
    (State.reset.responder.ptDb[(2 : BitVec 8).toNat]? = some ⟨desc0 2, ⟨.u8, 0⟩⟩ ∧
      List.length (List.replicate 16 (0 : Byte)) = p0.fieldSizes.svrAddr ∧
      List.length (List.replicate 15 (0 : Byte)) ≠ p0.fieldSizes.svrAddr ∧
      Datatype.ofCode p0 (desc0 2).dtype = some (⟨.u8, 1⟩ : Value).dt ∧
      (⟨.u8, 255⟩ : Value).fits p0 = true ∧ (⟨.u8, 256⟩ : Value).fits p0 = false ∧
      Datatype.ofCode p0 (desc0 2).dtype ≠ some (⟨.s8, 1⟩ : Value).dt) ∧
    State.reset.responder.ptDb[(3 : BitVec 8).toNat]? = none :=
  ⟨by decide, by decide, witness_databaseOk, rfl, by decide, by decide⟩

theorem witness_ResetEventLeaves :
    let s := (withP poller0).withEvents [.reset]
    s.cfg.ok = true ∧ s.poller.state ≠ 15 ∧ s.events = .reset :: [] :=
  ⟨by decide, by decide, rfl⟩

/-- With a tick to come, and with no event. -/
theorem witness_StateCode15Faults :
    (let s := ticking { poller0 with state := 15 } 1; s.cfg.ok = true ∧ s.poller.state = 15) ∧
    (let s := ticking { poller0 with state := 15 } 0; s.cfg.ok = true ∧ s.poller.state = 15) :=
  ⟨⟨by decide, rfl⟩, by decide, rfl⟩

/-- A tick, and an event that is neither a tick nor a reset. -/
theorem witness_StateFollowsTheTransitionTable :
    ((ticking poller0 1).events = .tick :: [] ∧ ∃ t, step (ticking poller0 1) = .next t) ∧
    (let s := (withP poller0).withEvents [.pollerRxIdle];
      s.events = .pollerRxIdle :: [] ∧ ∃ t, step s = .next t) := by
  refine ⟨⟨rfl, ?_⟩, rfl, ?_⟩
  · obtain ⟨t, ht, -⟩ := okOf_map (f := fun t => t.poller.state) (x := 13)
      (o := step (ticking poller0 1)) (by decide +kernel)
    exact ⟨t, ht⟩
  · obtain ⟨t, ht, -⟩ := okOf_map (f := fun t => t.poller.state) (x := 13)
      (o := step ((withP poller0).withEvents [.pollerRxIdle])) (by decide +kernel)
    exact ⟨t, ht⟩

/-- A transmitting tick, and a transmitting `RX_IDLE`. -/
theorem witness_TransmissionDiscipline :
    (∃ t, step (ticking { poller0 with state := 1 } 1) = .next t ∧
      t.pTx = [[0x02, 0x00, 0x62, 0x66]]) ∧
    (∃ t, step (idling [0x02, 0x00, 0x62, 0x66]) = .next t ∧
      t.rTx = [[0x04, 0x00, 0x01, 0x00, 0xC0, 0xF9]]) :=
  ⟨okOf_map (by decide +kernel), okOf_map (by decide +kernel)⟩

theorem witness_TransmittedFramesPassTheChecks :
    (ticking { poller0 with state := 1 } 1).databaseOk ∧
    (idling [0x02, 0x0B, 0x09, 0xD7]).databaseOk ∧
    (∃ t, step (ticking { poller0 with state := 1 } 1) = .next t ∧
      t.pTx = (ticking { poller0 with state := 1 } 1).pTx ++ [[0x02, 0x00, 0x62, 0x66]]) ∧
    (∃ t, step (idling [0x02, 0x0B, 0x09, 0xD7]) = .next t ∧
      t.rTx = (idling []).rTx ++ [[0x03, 0x0B, 0x01, 0x8B, 0x95]]) :=
  ⟨witness_databaseOk, witness_databaseOk, okOf_map (by decide +kernel), okOf_map (by decide +kernel)⟩

theorem witness_ConfigurationIsConstant :
    (∃ t, step (ticking poller0 1) = .next t ∧ t.poller.state = 13) ∧
      (ticking poller0 1).databaseOk :=
  ⟨okOf_map (by decide +kernel), witness_databaseOk⟩

/-- Two machines that agree on the poller only, before a tick; and two that agree on the responder only,
before an `APP_SET`. -/
theorem witness_UnitsShareNoState :
    (let s1 := ticking poller0 1;
      let s2 := s1.withResponder { s1.responder with brdStatus := 9 };
      s1.cfg = s2.cfg ∧ s1.events = .tick :: [] ∧ s2.events = .tick :: [] ∧
        Event.tick.isPollers = true ∧ s1.poller = s2.poller ∧ s1.freeSeq = s2.freeSeq ∧
        ∃ t, step s1 = .next t ∧ t.poller.state = 13) ∧
    (let s1 := (withP poller0).withEvents [.appSet (.brdStatus 1)];
      let s2 := s1.withPoller (Poller.reset 32);
      s1.cfg = s2.cfg ∧ s1.events = .appSet (.brdStatus 1) :: [] ∧
        s2.events = .appSet (.brdStatus 1) :: [] ∧
        (Event.appSet (.brdStatus 1)).isResponders = true ∧ s1.responder = s2.responder ∧
        s2.poller.state ≠ 15 ∧ ∃ t, step s1 = .next t ∧ t.poller.state = 13) :=
  ⟨⟨rfl, rfl, rfl, rfl, rfl, rfl, okOf_map (by decide +kernel)⟩,
    ⟨rfl, rfl, rfl, rfl, rfl, by decide, okOf_map (by decide +kernel)⟩⟩

theorem witness_SessionsAreIndependent :
    [State.reset, State.reset][1]? = some State.reset ∧ State.reset.events.head? ≠ some .reset ∧
      ∃ ts, Sessions.stepAt [State.reset, State.reset] 1 = some (.next ts) ∧ 0 ≠ 1 :=
  ⟨rfl, by decide, _, rfl, by decide⟩

/-- A session at its `RESET` beside one in the middle of an acquisition. -/
theorem witness_ResetReachesEverySession :
    let s := State.reset.withEvents [.reset, .tick]
    [s, ticking poller0 1][0]? = some s ∧ s.events = .reset :: [.tick] ∧
      (∀ u ∈ [s, ticking poller0 1], u.cfg.ok = true ∧ u.poller.state ≠ 15) ∧
      [s, ticking poller0 1][1]? = some (ticking poller0 1) :=
  ⟨rfl, rfl, by decide, rfl⟩

/-- The reference configuration, one with another address map, and one with other parameters. -/
theorem witness_ResetHasTheInvariant :
    Config.reference.ok = true ∧ ({ Config.reference with addrs := map1 } : Config).ok = true ∧
      c1.ok = true := by decide

theorem witness_StepKeepsTheInvariant :
    (ticking poller0 1).Inv ∧ ∃ t, step (ticking poller0 1) = .next t ∧ t.poller.state = 13 :=
  ⟨inv_ticking 1, okOf_map (by decide +kernel)⟩

theorem witness_InvariantStatesNeverFault : (ticking poller0 1).Inv := inv_ticking 1

/-- An unmapped row's address that another map gives to BRD_ID, an index at MAX_POINTS, and a writable point
with no value, a value of another datatype and one above its width. -/
theorem witness_IllFormedRequestsAreRefused :
    State.reset.cfg.ok = true ∧ classify State.reset.cfg.toProtocol 0x20 ≠ .unmapped ∧
    (∀ a : Byte, a ∈ ([0x0B, 0x0F, 0x1F] : List Byte) →
      ({ Config.reference with addrs := { map0 with brdId := a } } : Config).ok = true ∧
      classify { p0 with addrs := { map0 with brdId := a } } a ≠ .unmapped) ∧
    State.reset.cfg.maxPoints ≤ (32 : BitVec 8).toNat ∧
    ((1 : BitVec 8).toNat < State.reset.cfg.brd.numOfPoints.toNat ∧
      State.reset.responder.ptDb[(1 : BitVec 8).toNat]? = some ⟨desc0 1, ⟨.u32, 1000⟩⟩ ∧
      (desc0 1).accessRights &&& State.reset.cfg.access.write ≠ 0 ∧
      (∀ v ∈ ([⟨.u16, 7⟩, ⟨.u32, 2 ^ 32⟩] : List Value),
        Datatype.ofCode p0 (desc0 1).dtype = some v.dt → v.fits p0 = false)) := by decide +kernel

end Sys2Proof.Tests
end

section
/-!
What each input event leaves unchanged and which rules of the responder's registers it keeps, and what rests on
that: the constant configuration (10_state.md R60, R62), the receive path of the poller (R81, R82) and the
independence of sessions (R78).
-/

namespace Sys2Proof.Machine

/-! ### The database (10_state.md R61, R62) -/

/-- Storing a value of a point's datatype keeps the database sound. -/
theorem State.databaseOk_setValue {s : State} (h : s.databaseOk) {k : Nat} {e : DbEntry} {x : Value}
    (he : s.responder.ptDb[k]? = some e) (hx : e.desc.takes s.cfg.toProtocol x = true) :
    (s.withResponder (s.responder.setValue k x)).databaseOk := by
  obtain ⟨hdesc, hent, hmain, hsec⟩ := h
  have hget : ∀ j : Nat, (s.responder.setValue k x).ptDb[j]? =
      if k = j then some { e with value := x } else s.responder.ptDb[j]? := by
    intro j
    rw [Responder.setValue_ptDb, List.getElem?_modify]
    by_cases hj : k = j
    · subst hj; simp [he]
    · simp [hj]
  refine ⟨(List.ext_getElem? fun j => ?_).trans hdesc, fun e' he' => ?_, hmain, hsec⟩
  · rw [State.withResponder_responder, List.getElem?_map, List.getElem?_map, hget j]
    by_cases hj : k = j
    · subst hj; simp [he]
    · simp [hj]
  · obtain ⟨j, hj⟩ := List.mem_iff_getElem?.1 he'
    rw [State.withResponder_responder, hget j] at hj
    by_cases hkj : k = j
    · have hfits : e.desc.fits s.cfg.fieldSizes = true :=
        (Bool.and_eq_true _ _ ▸ hent e (List.mem_of_getElem? he)).1
      rw [if_pos hkj] at hj
      cases hj
      simp [DbEntry.ok, hfits, hx]
    · rw [if_neg hkj] at hj
      exact hent e' (List.mem_of_getElem? hj)

/-- `RESET` gives the configured database, which the boot requirements make sound. -/
theorem State.databaseOk_reset {s : State} (hc : s.cfg.ok = true)
    (hr : s.responder = Responder.reset s.cfg) : s.databaseOk := by
  obtain ⟨-, -, -, -, -, -, -, -, -, -, hmain, hsec, hent⟩ := (Config.ok_iff _).1 hc
  simp only [State.databaseOk, hr]
  exact ⟨rfl, hent, hmain, hsec⟩

/-! ### The responder's side -/

/-- The responder's receive buffer is canonical and its counter within the buffer (10_state.md R63). -/
def State.srxOk (s : State) : Prop :=
  Memory.wf s.responder.srxBuf ∧ s.responder.srxCount.toNat ≤ s.cfg.rxBufSize

/-- What everything the responder's side does leaves alone, and which rules for its own registers it keeps. -/
structure Served (s t : State) : Prop where
  cfg : t.cfg = s.cfg
  poller : t.poller = s.poller
  database : s.databaseOk → t.databaseOk
  srx : s.cfg.ok = true → s.srxOk → t.srxOk

theorem Served.refl (s : State) : Served s s := ⟨rfl, rfl, id, fun _ => id⟩

theorem Served.trans {s t u : State} (h : Served s t) (h' : Served t u) : Served s u where
  cfg := h'.cfg.trans h.cfg
  poller := h'.poller.trans h.poller
  database hs := h'.database (h.database hs)
  srx hc hs := h'.srx (h.cfg.symm ▸ hc) (h.srx hc hs)

/-- Storing a value of a point's datatype. -/
theorem Served.setValue {s : State} {k : Nat} {e : DbEntry} {x : Value}
    (he : s.responder.ptDb[k]? = some e) (hx : e.desc.takes s.cfg.toProtocol x = true) :
    Served s (s.withResponder (s.responder.setValue k x)) :=
  ⟨rfl, rfl, fun h => s.databaseOk_setValue h he hx, fun _ h => h⟩

/-- A response writes no register of the responder. -/
theorem Served.respond (s : State) (a : Byte) (r : Except DispatchError RspFields) :
    Served s (s.respond a r) := ⟨rfl, rfl, id, fun _ => id⟩

/-- A request that completes answers, after storing a value if it is an accepted write
(42_dispatcher.md R233, R250). -/
theorem Served.request {i : Instr} {a : Byte} {s t : State} (ha : requestAddr s.cfg.addrs i = some a)
    (ht : exec i s = .next t) : Served s t := by
  rcases exec_request ha ht with ⟨r, rfl⟩ | ⟨k, x, e, -, -, he, -, hx, rfl⟩
  · exact .respond s a r
  · exact (Served.setValue he hx).trans (.respond _ _ _)

/-- A byte received by the responder (42_dispatcher.md R230). -/
theorem Served.rxByte {b : Byte} {s t : State} (ht : onResponderRxByte b s = .next t) : Served s t := by
  rcases onResponderRxByte_cases b s with ⟨hlt, h⟩ | ⟨-, h⟩ <;> cases h.symm.trans ht
  · refine ⟨rfl, rfl, id, fun hc hs => ⟨Memory.write_wf hs.1 _ _, ?_⟩⟩
    obtain ⟨-, -, -, hsize, -⟩ := (Config.ok_iff _).1 hc
    simp only [State.withResponder_responder, State.withResponder_cfg, Responder.push_srxCount]
    bv_omega
  · exact .refl s

/-- The end of a frame: it is consumed, and the request in it is served (42_dispatcher.md R231). -/
theorem Served.rxIdle {s t : State} (ht : onResponderRxIdle s = .next t) : Served s t := by
  have consumed : Served s s.consumed := ⟨rfl, rfl, id, fun _ h => ⟨h.1, Nat.zero_le _⟩⟩
  rcases onResponderRxIdle_next ht with ⟨-, rfl⟩ | ⟨buf, -, ⟨e, -, rfl⟩ | ⟨i, hi, ht⟩⟩
  · exact .refl _
  · exact consumed
  · obtain ⟨a, ha⟩ := requestAddr_decodeRequest hi
    exact consumed.trans (.request ha ht)

/-- A move of the sensor application (42_dispatcher.md R234). -/
theorem Served.appSet {f : AppField} {s t : State} (ht : onAppSet f s = .next t) : Served s t := by
  obtain ⟨r, rfl, hbuf, hcount, hmain, hsec, hdb⟩ := onAppSet_next ht
  rcases hdb with hdb | ⟨i, x, e, -, he, hx, rfl⟩
  · refine ⟨rfl, rfl, fun ⟨hdesc, hent, hm, hs⟩ => ?_, fun _ h => ⟨hbuf.symm ▸ h.1, hcount.symm ▸ h.2⟩⟩
    exact ⟨(congrArg _ hdb).trans hdesc, hdb.symm ▸ hent, hmain.elim (·.symm ▸ hm) id,
      hsec.elim (·.symm ▸ hs) id⟩
  · exact .setValue he hx

/-! ### What an event leaves unchanged -/

/-- Every event but `RESET` belongs to one side (10_state.md R80). -/
theorem Event.side (e : Event) : e = .reset ∨ e.isPollers = true ∨ e.isResponders = true := by
  cases e <;> simp [Event.isPollers, Event.isResponders]

/-- A tick runs a poller state. -/
theorem onTick_polled {s t : State} (ht : onTick s = .next t) : Polled s t := by
  obtain ⟨i, hi, ht⟩ := onTick_next ht
  exact exec_polled (requestAddr_decodeState hi) ht

/-- An event of the poller's side writes neither the configuration nor the responder. -/
theorem onEvent_pollers {e : Event} {s t : State} (he : e.isPollers = true)
    (ht : onEvent e s = .next t) : t.cfg = s.cfg ∧ t.responder = s.responder := by
  cases e with
  | tick => exact ⟨(onTick_polled ht).cfg, (onTick_polled ht).responder⟩
  | pollerRxByte b =>
    rcases onPollerRxByte_cases b s with ⟨-, h⟩ | ⟨-, h⟩ <;> cases h.symm.trans ht <;> exact ⟨rfl, rfl⟩
  | pollerRxIdle =>
    simp only [onEvent, onPollerRxIdle] at ht
    split at ht <;> cases ht <;> exact ⟨rfl, rfl⟩
  | reset | responderRxByte _ | responderRxIdle | appSet _ => simp [Event.isPollers] at he

/-- An event of the responder's side. -/
theorem onEvent_responders {e : Event} {s t : State} (he : e.isResponders = true)
    (ht : onEvent e s = .next t) : Served s t := by
  cases e with
  | responderRxByte b => exact .rxByte ht
  | responderRxIdle => exact .rxIdle ht
  | appSet f => exact .appSet ht
  | reset | tick | pollerRxByte _ | pollerRxIdle => simp [Event.isResponders] at he

/-! ### The configuration and the database (10_state.md R60 to R62) -/

theorem onEvent_cfg {e : Event} {s t : State} (ht : onEvent e s = .next t) : t.cfg = s.cfg := by
  rcases e.side with rfl | he | he
  · cases ht; rfl
  · exact (onEvent_pollers he ht).1
  · exact (onEvent_responders he ht).cfg

theorem onEvent_databaseOk {e : Event} {s t : State} (hc : s.cfg.ok = true) (hs : s.databaseOk)
    (ht : onEvent e s = .next t) : t.databaseOk := by
  rcases e.side with rfl | he | he
  · cases ht; exact State.databaseOk_reset hc rfl
  · obtain ⟨hcfg, hresp⟩ := onEvent_pollers he ht
    simpa only [State.databaseOk, hcfg, hresp] using hs
  · exact (onEvent_responders he ht).database hs

theorem step_cfg {s t : State} (ht : step s = .next t) : t.cfg = s.cfg := by
  obtain ⟨-, -, ⟨-, rfl⟩ | ⟨e, es, -, ht⟩⟩ := step_next ht
  · rfl
  · exact onEvent_cfg (s := s.withEvents es) ht

/-- Every step keeps the database sound, a `RESET` because the configured one is. -/
theorem step_databaseOk {s t : State} (hs : s.databaseOk) (ht : step s = .next t) : t.databaseOk := by
  obtain ⟨hc, -, ⟨-, rfl⟩ | ⟨e, es, -, ht⟩⟩ := step_next ht
  · exact hs
  · exact onEvent_databaseOk (s := s.withEvents es) hc hs ht

/-- Settles O53: a sound database has the configured descriptors, before and after the step. -/
theorem configurationIsConstant : Obligations.ConfigurationIsConstant := by
  intro s t ht
  refine ⟨step_cfg ht, fun hs => ?_⟩
  calc t.responder.ptDb.map DbEntry.desc
      = t.cfg.points.map DbEntry.desc := (step_databaseOk hs ht).1
    _ = s.cfg.points.map DbEntry.desc := by rw [step_cfg ht]
    _ = s.responder.ptDb.map DbEntry.desc := hs.1.symm

/-! ### The poller's receive path (10_state.md R81, R82) -/

/-- Settles O45: the accepted byte is written at the counter, and a write reads anew at its own offset only. -/
theorem pollerReceivesBytes : Obligations.PollerReceivesBytes := by
  intro s es hc hs hwf
  obtain ⟨-, -, -, hsize, -⟩ := (Config.ok_iff _).1 hc
  refine ⟨fun b he => ⟨fun hroom => ?_, fun hfull => ?_⟩, fun he => ⟨fun hpos => ?_, fun hzero => ?_⟩⟩
  all_goals rw [step_event hc hs he]
  · refine ⟨_, _, if_pos hroom, ⟨rfl, rfl, rfl, rfl, (List.append_nil _).symm, rfl⟩, ?_,
      (Memory.write_spec hwf _ b).2⟩
    simp only [State.withPoller_poller, State.withEvents_poller, Poller.push_rxCount]
    bv_omega
  · exact if_neg (Nat.not_lt.2 hfull)
  · exact if_pos hpos
  · exact if_neg (not_not.2 hzero)

/-! ### Sessions (10_state.md R78) -/

/-- A session's step on an event that is not `RESET` writes that session alone. -/
theorem Sessions.stepAt_next {ss ts : Sessions} {k : Nat} {s : State} (hk : ss[k]? = some s)
    (he : s.events.head? ≠ some .reset) (hts : ss.stepAt k = some (.next ts)) :
    ∃ t, step s = .next t ∧ ts = ss.set k t := by
  unfold Sessions.stepAt at hts
  simp only [hk] at hts
  split at hts
  case h_1 es hes => exact absurd (by rw [hes]; rfl) he
  case h_2 =>
    split at hts <;> cases hts
    exact ⟨_, by assumption, rfl⟩

/-- Settles O55: the step writes back one place of the list of sessions. -/
theorem sessionsAreIndependent : Obligations.SessionsAreIndependent := by
  intro ss ts s k j hk he hts
  obtain ⟨t, ht, rfl⟩ := Sessions.stepAt_next hk he hts
  obtain ⟨hlt, -⟩ := List.getElem?_eq_some_iff.1 hk
  exact ⟨t, ht, List.getElem?_set_self hlt, List.length_set, fun hj => List.getElem?_set_ne hj.symm⟩

end Sys2Proof.Machine
end

section
/-!
The handler a tick runs, tied to the step once, with the results each state's handler can end with; these select
the edges of the transition table (43_poller_fsm.md R270 to R272).
-/

namespace Sys2Proof.Machine

/-! ### The handler a tick runs -/

/-- The 15 states. -/
def FsmState.all : List FsmState := .init :: handshakeStates ++ sessionStates

theorem FsmState.mem_all (f : FsmState) : f ∈ FsmState.all := by cases f <;> decide

theorem FsmState.code_injective {f g : FsmState} (h : f.code = g.code) : f = g := by
  have inj : ∀ f ∈ FsmState.all, ∀ g ∈ FsmState.all, f.code = g.code → f = g := by decide
  exact inj f f.mem_all g g.mem_all h

/-- Every code but 15 is a state's (30_encoding.md R170). -/
theorem FsmState.exists_code {c : BitVec 4} (h : c ≠ 15) : ∃ f : FsmState, c = f.code := by
  have codes : ∀ c : BitVec 4, c ≠ 15 → ∃ f ∈ FsmState.all, c = f.code := by decide
  obtain ⟨f, -, hf⟩ := codes c h
  exact ⟨f, hf⟩

/-- The handler of a state, before the driver applies its result; `onTick_of_code` ties it to the step. -/
def FsmState.handler (s : State) : FsmState → Except Fault Handled
  | .init => .ok (.ok (s.withPoller (s.poller.clearSession s.cfg.maxPoints)))
  | .sendItfVer => .ok (.ok (s.send s.cfg.addrs.itfVersion))
  | .sendBrdId => .ok (.ok (s.send s.cfg.addrs.brdId))
  | .waitItfVerAns | .waitBrdIdAns | .waitPtDescAns | .waitPtValAns => .ok (waitAns s)
  | .procItfVer => processAnswer s judgeItfVer
  | .procBrdId => processAnswer s judgeBrdId
  | .procPtDesc => processAnswer s judgePtDesc
  | .procPtVal => handleProcPtVal s
  | .sendPtDesc => .ok (handleSendPtDesc s)
  | .buildSch => .ok (handleBuildSch s)
  | .runSch => .ok (handleRunSch s)
  | .sendPtVal => .ok (handleSendPtVal s)

/-- A tick runs the handler of the state whose code the state register holds, and then the driver
(43_poller_fsm.md R270). -/
theorem onTick_of_code {s : State} {f : FsmState} (h : s.poller.state = f.code) :
    onTick s = driveOrFault f (f.handler s) := by
  unfold onTick
  rw [h]
  cases f <;> rfl

/-- The table entry the driver applies for a result: `WAIT_OK` stays, `ERROR` takes the error target
(43_poller_fsm.md R270). -/
def FsmState.target (f : FsmState) : HandlerResult → FsmTarget
  | .ok | .waitStop => (fsmRow f).next
  | .waitOk => .used f
  | .waitAbort => (fsmRow f).abort
  | .error => .used (fsmRow f).error

theorem drive_target {f : FsmState} {h : Handled} {t : State} (ht : drive f h = .next t) :
    ∃ g, f.target h.result = .used g ∧ t = h.state.withPoller (h.state.poller.goto g.code) := by
  obtain ⟨g, rfl, hg⟩ := drive_next ht
  refine ⟨g, ?_, rfl⟩
  unfold FsmState.target
  cases hr : h.result <;> simp_all

/-- Everything a tick that completes does. -/
theorem onTick_handler {s t : State} (ht : onTick s = .next t) :
    ∃ (f : FsmState) (h : Handled) (g : FsmState), s.poller.state = f.code ∧ f.handler s = .ok h ∧
      f.target h.result = .used g ∧ t = h.state.withPoller (h.state.poller.goto g.code) := by
  have hs : s.poller.state ≠ 15 := fun h => by simp [onTick, h, decodeState] at ht
  obtain ⟨f, hf⟩ := FsmState.exists_code hs
  rw [onTick_of_code hf] at ht
  obtain ⟨h, hh, ht⟩ := driveOrFault_next ht
  obtain ⟨g, hg, rfl⟩ := drive_target ht
  exact ⟨f, h, g, hf, hh, hg, rfl⟩

/-! ### The results a handler can end with, and the edges they select -/

@[simp] theorem Handled.ok_result (s : State) : (Handled.ok s).result = .ok := rfl
@[simp] theorem Handled.failed_result (s : State) (e : BlockError) : (Handled.failed s e).result = .error := rfl
@[simp] theorem Handled.abort_result (s : State) : (Handled.abort s).result = .waitAbort := rfl
@[simp] theorem Handled.waitOk_result (s : State) : (Handled.waitOk s).result = .waitOk := rfl

/-- The results each state's handler can end with (43_poller_fsm.md sections 2 to 8). -/
def FsmState.results : FsmState → List HandlerResult
  | .init | .sendItfVer | .sendBrdId | .procPtDesc | .buildSch | .procPtVal => [.ok]
  | .waitItfVerAns | .waitBrdIdAns | .waitPtDescAns | .waitPtValAns => [.waitOk, .waitStop, .waitAbort]
  | .procItfVer | .procBrdId => [.ok, .error]
  | .sendPtDesc | .sendPtVal => [.ok, .waitAbort, .error]
  | .runSch => [.waitOk, .waitAbort]

theorem waitAns_result (s : State) : (waitAns s).result ∈ [.waitOk, .waitStop, .waitAbort] := by
  rcases waitAns_cases s with ⟨-, h⟩ | ⟨-, ⟨-, h⟩ | ⟨-, -, h⟩ | ⟨-, -, h⟩⟩ <;> simp [h]

theorem countedSend_result (s : State) (a : Byte) : (countedSend s a).result ∈ [.ok, .waitAbort, .error] := by
  rcases countedSend_cases s a with ⟨-, h⟩ | ⟨-, h⟩ <;> simp [h]

/-- PROC_PT_VAL judges the answer for the point the cursor stands at (43_poller_fsm.md R311). -/
theorem handleProcPtVal_ok {s : State} {h : Handled} (hh : handleProcPtVal s = .ok h) :
    ∃ buf, s.pollerFrame = some buf ∧ judgePtVal s.dueIndex (s.answer buf) s.crcIdle.nextFree = h :=
  processAnswer_ok hh

theorem FsmState.handler_result {f : FsmState} {s : State} {h : Handled} (hh : f.handler s = .ok h) :
    h.result ∈ f.results := by
  cases f with
  | init | sendItfVer | sendBrdId | buildSch => cases hh; exact List.mem_singleton.2 rfl
  | waitItfVerAns | waitBrdIdAns | waitPtDescAns | waitPtValAns => cases hh; exact waitAns_result s
  | procItfVer =>
    obtain ⟨buf, -, rfl⟩ := processAnswer_ok hh
    rcases judgeItfVer_cases (s.answer buf) s.crcIdle with ⟨-, h⟩ | ⟨-, e, h⟩ <;> simp [h, results]
  | procBrdId =>
    obtain ⟨buf, -, rfl⟩ := processAnswer_ok hh
    rcases judgeBrdId_cases (s.answer buf) s.crcIdle with ⟨b, -, -, -, h⟩ | ⟨b, -, -, h⟩ | ⟨-, h⟩ <;>
      simp [h, results]
  | procPtDesc =>
    obtain ⟨buf, -, rfl⟩ := processAnswer_ok hh
    rcases judgePtDesc_cases (s.answer buf) s.crcIdle with ⟨d, -, h⟩ | ⟨-, h⟩ <;> simp [h, results]
  | procPtVal =>
    obtain ⟨buf, -, rfl⟩ := handleProcPtVal_ok hh
    rcases judgePtVal_cases s.dueIndex (s.answer buf) s.crcIdle.nextFree with
      ⟨-, h⟩ | ⟨r, -, ⟨-, h⟩ | ⟨-, -, h⟩ | ⟨-, -, h⟩⟩ <;> simp [h, results]
  | sendPtDesc =>
    cases hh
    rcases handleSendPtDesc_cases s with ⟨-, h⟩ | ⟨-, h⟩ <;> rw [h]
    · simp [results]
    · exact countedSend_result _ _
  | runSch =>
    cases hh
    simp only [handleRunSch]
    split <;> simp [results]
  | sendPtVal =>
    cases hh
    simp only [handleSendPtVal]
    split
    · simp [results]
    · exact countedSend_result _ _

/-- The results of the handlers select exactly the edges of the statement. -/
theorem FsmState.target_mem_tickEdges {f g : FsmState} {r : HandlerResult} (hr : r ∈ f.results)
    (hg : f.target r = .used g) : (f.code, g.code) ∈ tickEdges := by
  have edges : ∀ f ∈ FsmState.all, ∀ r ∈ f.results, ∀ g ∈ FsmState.all, f.target r = .used g →
      (f.code, g.code) ∈ tickEdges := by decide
  exact edges f f.mem_all r hr g g.mem_all hg

/-- The poller's side of the link never writes the state register. -/
theorem onEvent_pollers_state {e : Event} {s t : State} (he : e.isPollers = true) (htick : e ≠ .tick)
    (ht : onEvent e s = .next t) : t.poller.state = s.poller.state := by
  cases e with
  | tick => exact absurd rfl htick
  | pollerRxByte b =>
    rcases onPollerRxByte_cases b s with ⟨-, h⟩ | ⟨-, h⟩ <;> cases h.symm.trans ht <;> rfl
  | pollerRxIdle =>
    simp only [onEvent, onPollerRxIdle] at ht
    split at ht <;> cases ht <;> rfl
  | reset | responderRxByte _ | responderRxIdle | appSet _ => simp [Event.isPollers] at he

/-- Settles O50: the results each handler can end with select the edges, and no other event writes the register. -/
theorem stateFollowsTheTransitionTable : Obligations.StateFollowsTheTransitionTable := by
  intro s t e es he ht
  obtain ⟨hc, hs, -⟩ := step_next ht
  rw [step_event hc hs he] at ht
  refine ⟨?_, fun htick hreset => ?_⟩
  · rintro rfl
    obtain ⟨f, h, g, hf, hh, hg, rfl⟩ := onTick_handler ht
    have hstate : s.poller.state = f.code := hf
    rw [hstate]
    exact FsmState.target_mem_tickEdges (FsmState.handler_result hh) hg
  · rcases e.side with rfl | hp | hr
    · exact absurd rfl hreset
    · exact onEvent_pollers_state (s := s.withEvents es) hp htick ht
    · rw [(onEvent_responders hr ht).poller]; rfl

end Sys2Proof.Machine
end

section
/-!
The poller's part of the invariant (10_state.md R41 to R54), in two: the rules on its registers that hold in every
state, which each register update keeps under its own condition, and what each state asks for on entry.
-/

namespace Sys2Proof.Machine

/-! ### Addresses and parameters -/

/-- The three disjoint point ranges bound `MAX_POINTS` well below the range of a byte. -/
theorem Config.maxPoints_lt {c : Config} (hc : c.ok = true) : c.maxPoints < 256 := by
  obtain ⟨-, -, -, -, -, -, hp, -⟩ := (Config.ok_iff _).1 hc
  obtain ⟨-, -, -, -, -, -, -, ha⟩ := (Protocol.ok_iff _).1 hp
  obtain ⟨-, hin, hdis, -⟩ := (AddrMap.ok_iff _ _).1 ha
  simp only [AddrMap.bases, List.mem_cons, List.not_mem_nil, or_false, forall_eq_or_imp, forall_eq,
    List.pairwise_cons] at hin hdis
  omega

/-- The address of descriptor `i` is classified as such (30_encoding.md R131). -/
theorem classify_pointDescAddr {c : Config} (hc : c.ok = true) {i : BitVec 8} (hi : i.toNat < c.maxPoints) :
    classify c.toProtocol (c.addrs.pointDescBase + i) = .pointDesc i := by
  obtain ⟨-, -, -, -, -, -, hp, -⟩ := (Config.ok_iff _).1 hc
  obtain ⟨-, -, -, -, -, -, -, ha⟩ := (Protocol.ok_iff _).1 hp
  obtain ⟨-, hin, -, -⟩ := (AddrMap.ok_iff _ _).1 ha
  have hr := (inRange_iff (hin c.addrs.pointDescBase (by simp [AddrMap.bases]))).2 ⟨i, hi, rfl⟩
  simp [classify, hr]

/-- The address of value `i` is classified as such (30_encoding.md R131). -/
theorem classify_readPointAddr {c : Config} (hc : c.ok = true) {i : BitVec 8} (hi : i.toNat < c.maxPoints) :
    classify c.toProtocol (c.addrs.readPointDataBase + i) = .readPoint i := by
  obtain ⟨-, -, -, -, -, -, hp, -⟩ := (Config.ok_iff _).1 hc
  obtain ⟨-, -, -, -, -, -, -, ha⟩ := (Protocol.ok_iff _).1 hp
  obtain ⟨-, hin, hdis, -⟩ := (AddrMap.ok_iff _ _).1 ha
  have hr := (inRange_iff (hin c.addrs.readPointDataBase (by simp [AddrMap.bases]))).2 ⟨i, hi, rfl⟩
  have hd : inRange c.maxPoints c.addrs.pointDescBase (c.addrs.readPointDataBase + i) = false := by
    simp only [AddrMap.bases, List.mem_cons, List.not_mem_nil, or_false, forall_eq_or_imp, forall_eq,
      List.pairwise_cons] at hin hdis
    simp only [inRange, decide_eq_false_iff_not]
    bv_omega
  simp [classify, hr, hd]

/-! ### The rules that hold in every state -/

/-- The rules of `State.Inv` on the poller's registers that do not read the state register. -/
structure Poller.DataOk (c : Config) (p : Poller) : Prop where
  brd : ∀ b, p.brd = some b → b.fits c.fieldSizes = true
  table : p.tableOk c.toProtocol
  sched : p.schedOk c.toProtocol
  due : p.due.Sublist (p.sched.map SchedEntry.idx)
  cursor : p.cursor.toNat ≤ c.maxPoints
  retries : p.retries.toNat ≤ c.maxRetries + 1
  tickCnt : p.tickCnt.toNat ≤ c.timeoutTicks + 1
  timeout : p.timeoutTicks = 0 ∨ p.timeoutTicks.toNat = c.timeoutTicks
  rxBuf : Memory.wf p.rxBuf
  rxCount : p.rxCount.toNat ≤ c.rxBufSize

/-- An attempt may still be under way (10_state.md R49). -/
def Poller.Trying (c : Config) (p : Poller) : Prop := p.retries.toNat ≤ c.maxRetries

/-- The timeout is armed and has not run out (10_state.md R51, R52). -/
def Poller.Armed (c : Config) (p : Poller) : Prop :=
  p.timeoutTicks.toNat = c.timeoutTicks ∧ p.tickCnt.toNat ≤ c.timeoutTicks

/-- The handshake is under way: no point is known (10_state.md R44). -/
def Poller.Greeting (c : Config) (p : Poller) : Prop := p.Trying c ∧ p.ptCount = 0

/-- A board identity with a legal point count is held, and not more points than it has (10_state.md R44). -/
def Poller.Session (c : Config) (p : Poller) : Prop :=
  p.Trying c ∧ ∃ b, p.brd = some b ∧ 1 ≤ b.numOfPoints.toNat ∧ b.numOfPoints.toNat ≤ c.maxPoints ∧
    p.ptCount.toNat ≤ b.numOfPoints.toNat

/-- The board has a point whose descriptor is not known yet. -/
def Poller.Discovering (p : Poller) : Prop := ∀ b, p.brd = some b → p.ptCount.toNat < b.numOfPoints.toNat

/-- The cursor stands at an entry of the due list. -/
def Poller.Acquiring (p : Poller) : Prop := p.cursor.toNat < p.due.length

/-- What each state asks for on entry, beside the rules that hold in every state; `State.inv_iff` ties it to
the invariant. -/
def Poller.Ready (c : Config) (p : Poller) : FsmState → Prop
  | .init => True
  | .sendItfVer | .procItfVer | .sendBrdId | .procBrdId => p.Greeting c
  | .waitItfVerAns | .waitBrdIdAns => p.Greeting c ∧ p.Armed c
  | .sendPtDesc | .buildSch | .runSch => p.Session c
  | .waitPtDescAns => p.Session c ∧ p.Discovering ∧ p.Armed c
  | .procPtDesc => p.Session c ∧ p.Discovering
  | .sendPtVal => p.Session c ∧ p.cursor.toNat ≤ p.due.length
  | .waitPtValAns => p.Session c ∧ p.Acquiring ∧ p.Armed c
  | .procPtVal => p.Session c ∧ p.Acquiring

/-- The poller's part of the invariant. -/
def Poller.Good (c : Config) (p : Poller) : Prop :=
  ∃ f : FsmState, p.state = f.code ∧ p.DataOk c ∧ p.Ready c f

theorem Poller.stateIn_iff {p : Poller} {f : FsmState} (h : p.state = f.code) (fs : List FsmState) :
    p.stateIn fs ↔ f ∈ fs := by
  refine ⟨fun ⟨g, hg, hc⟩ => ?_, fun hf => ⟨f, hf, h⟩⟩
  rwa [FsmState.code_injective (h.symm.trans hc)]

/-- What a state asks for on entry is what the invariant's conditions on the state register say of it. -/
theorem Poller.ready_iff {c : Config} {p : Poller} {f : FsmState} (h : p.state = f.code) :
    p.Ready c f ↔
      (p.state ≠ FsmState.init.code → p.Trying c) ∧ (p.stateIn handshakeStates → p.ptCount = 0) ∧
      (p.stateIn sessionStates → ∃ b, p.brd = some b ∧ 1 ≤ b.numOfPoints.toNat ∧
        b.numOfPoints.toNat ≤ c.maxPoints ∧ p.ptCount.toNat ≤ b.numOfPoints.toNat ∧
        (p.stateIn [.waitPtDescAns, .procPtDesc] → p.ptCount.toNat < b.numOfPoints.toNat)) ∧
      (p.stateIn [.sendPtVal] → p.cursor.toNat ≤ p.due.length) ∧
      (p.stateIn [.waitPtValAns, .procPtVal] → p.Acquiring) ∧ (p.stateIn waitStates → p.Armed c) := by
  have hinit : p.state = FsmState.init.code ↔ f = .init :=
    ⟨fun hi => FsmState.code_injective (h.symm.trans hi), fun hi => hi ▸ h⟩
  simp only [Poller.stateIn_iff h, ne_eq, hinit]
  cases f
  case waitPtDescAns | procPtDesc =>
    cases hb : p.brd <;>
      simp [Ready, Session, Discovering, hb, handshakeStates, sessionStates, waitStates]
    grind
  all_goals
    simp [Ready, Greeting, Session, handshakeStates, sessionStates, waitStates, and_assoc]

theorem State.inv_iff (s : State) :
    s.Inv ↔ s.cfg.ok = true ∧ s.poller.Good s.cfg ∧ s.databaseOk ∧ s.srxOk := by
  constructor
  · rintro ⟨hc, ⟨hrx, hsrx, hrxc, hsrxc⟩, hdb, ⟨hs, hbrd, hhand, hsess, hacq⟩, htab, hsch,
      ⟨hdue, hcur, hsend⟩, hret, htick, htime, harm, htry⟩
    obtain ⟨f, hf⟩ := FsmState.exists_code hs
    exact ⟨hc, ⟨f, hf, ⟨hbrd, htab, hsch, hdue, hcur, hret, htick, htime, hrx, hrxc⟩,
      (Poller.ready_iff hf).2 ⟨htry, hhand, hsess, hsend, hacq, harm⟩⟩, hdb, hsrx, hsrxc⟩
  · rintro ⟨hc, ⟨f, hf, ⟨hbrd, htab, hsch, hdue, hcur, hret, htick, htime, hrx, hrxc⟩, hready⟩, hdb,
      hsrx, hsrxc⟩
    obtain ⟨htry, hhand, hsess, hsend, hacq, harm⟩ := (Poller.ready_iff hf).1 hready
    have hs : s.poller.state ≠ 15 := by rw [hf]; cases f <;> decide
    exact ⟨hc, ⟨hrx, hsrx, hrxc, hsrxc⟩, hdb, ⟨hs, hbrd, hhand, hsess, hacq⟩, htab, hsch,
      ⟨hdue, hcur, hsend⟩, hret, htick, htime, harm, htry⟩

/-! ### One rule per register update -/

section
variable {c : Config} {p : Poller}

theorem Poller.DataOk.goto (h : p.DataOk c) (x : BitVec 4) : (p.goto x).DataOk c := { h with }

theorem Poller.DataOk.reset : (Poller.reset c.maxPoints).DataOk c where
  brd _ hb := nomatch hb
  table := ⟨List.length_replicate, Nat.zero_le _, fun k hk => by simp [Poller.reset, hk]⟩
  sched := ⟨.nil, Nat.zero_le _, fun _ he => nomatch he⟩
  due := .slnil
  cursor := Nat.zero_le _
  retries := Nat.zero_le _
  tickCnt := Nat.zero_le _
  timeout := .inl rfl
  rxBuf := Memory.wf_nil
  rxCount := Nat.zero_le _

/-- What `INIT` clears is as after `RESET`, but for the receive path. -/
theorem Poller.DataOk.clearSession (h : p.DataOk c) : (p.clearSession c.maxPoints).DataOk c :=
  { (reset : (Poller.reset c.maxPoints).DataOk c) with rxBuf := h.rxBuf, rxCount := h.rxCount }

/-- The register armed with `TIMEOUT_TICKS` holds it (00_scope.md R12, notes/assumptions/7.md). -/
theorem Config.toNat_timeoutTicks (hc : c.ok = true) :
    (BitVec.ofNat 32 c.timeoutTicks).toNat = c.timeoutTicks := by
  obtain ⟨-, -, -, -, ht, -⟩ := (Config.ok_iff _).1 hc
  rw [BitVec.toNat_ofNat, Nat.mod_eq_of_lt (by omega)]

theorem Poller.DataOk.arm (h : p.DataOk c) (hc : c.ok = true) :
    (p.arm (BitVec.ofNat 32 c.timeoutTicks)).DataOk c :=
  { h with
    tickCnt := Nat.zero_le _
    timeout := .inr (Config.toNat_timeoutTicks hc)
    rxCount := Nat.zero_le _ }

theorem Poller.armed_arm (hc : c.ok = true) : (p.arm (BitVec.ofNat 32 c.timeoutTicks)).Armed c :=
  ⟨Config.toNat_timeoutTicks hc, Nat.zero_le _⟩

/-- A tick counted before the timeout runs out. -/
theorem Poller.DataOk.countTick (h : p.DataOk c) (ha : p.Armed c) : p.countTick.DataOk c :=
  { h with
    tickCnt := by
      have := ha.2
      simp only [countTick_tickCnt]
      bv_omega }

/-- An attempt counted while one may be under way. -/
theorem Poller.DataOk.countRetry (h : p.DataOk c) (ht : p.Trying c) : p.countRetry.DataOk c :=
  { h with
    retries := by
      have : p.retries.toNat ≤ c.maxRetries := ht
      simp only [countRetry_retries]
      bv_omega }

theorem Poller.DataOk.setBoard (h : p.DataOk c) {b : BoardId} (hb : b.fits c.fieldSizes = true) :
    (p.setBoard b).DataOk c :=
  { h with brd := fun b' hb' => by cases hb'; exact hb }

/-- Clearing the count of a table without points. -/
theorem Poller.clearCount_of_zero (h : p.ptCount = 0) : p.clearCount = p := by
  cases p; cases h; rfl

theorem Poller.DataOk.startRound (h : p.DataOk c) : p.startRound.DataOk c :=
  { h with cursor := Nat.zero_le _, retries := Nat.zero_le _ }

theorem Poller.DataOk.clearRetries (h : p.DataOk c) : p.clearRetries.DataOk c :=
  { h with retries := Nat.zero_le _ }

/-- The due list is no longer than the point table, so the cursor cannot wrap on it. -/
theorem Poller.DataOk.length_due (h : p.DataOk c) : p.due.length ≤ c.maxPoints := by
  have := h.due.length_le
  rw [List.length_map] at this
  exact this.trans h.sched.2.1

theorem Poller.toNat_advance (h : p.DataOk c) (hc : c.ok = true) (ha : p.Acquiring) :
    p.advance.cursor.toNat = p.cursor.toNat + 1 := by
  have hlt : p.cursor.toNat < p.due.length := ha
  have := h.length_due
  have := Config.maxPoints_lt hc
  simp only [advance_cursor]
  bv_omega

theorem Poller.DataOk.advance (h : p.DataOk c) (hc : c.ok = true) (ha : p.Acquiring) : p.advance.DataOk c :=
  { h with
    cursor := by
      have hlt : p.cursor.toNat < p.due.length := ha
      rw [toNat_advance h hc ha]
      exact hlt.trans_le h.length_due }

theorem Poller.DataOk.push (h : p.DataOk c) (hc : c.ok = true) (hlt : p.rxCount.toNat < c.rxBufSize) (b : Byte) :
    (p.push b).DataOk c :=
  { h with
    rxBuf := Memory.write_wf h.rxBuf _ _
    rxCount := by
      obtain ⟨-, -, -, hsize, -⟩ := (Config.ok_iff _).1 hc
      simp only [push_rxCount]
      bv_omega }

theorem Poller.DataOk.flagFrame (h : p.DataOk c) : p.flagFrame.DataOk c := { h with }

/-! The updates of the point table and the schedule. -/

/-- An update of the point table that keeps the descriptors of the points already discovered keeps the schedule
sound. -/
theorem Poller.schedOk_of_descs {q : Poller} (h : p.schedOk c.toProtocol) (hs : q.sched = p.sched)
    (hn : p.ptCount.toNat ≤ q.ptCount.toNat)
    (hd : ∀ k e, k < p.ptCount.toNat → p.ptTable[k]? = some (some e) →
      ∃ e', q.ptTable[k]? = some (some e') ∧ e'.desc = e.desc) : q.schedOk c.toProtocol := by
  obtain ⟨hasc, hlen, hent⟩ := h
  refine ⟨hs ▸ hasc, hs ▸ hlen, fun x hx => ?_⟩
  obtain ⟨hidx, hpos, hle, e, he, hsch, hint⟩ := hent x (hs ▸ hx)
  obtain ⟨e', he', hdesc⟩ := hd _ _ hidx he
  exact ⟨hidx.trans_le hn, hpos, hle, e', he', hdesc ▸ hsch, hdesc ▸ hint⟩

/-- A descriptor of its size with a legal datatype, where the table has room. -/
theorem Poller.DataOk.addPoint (h : p.DataOk c) (hc : c.ok = true) {d : PointDesc}
    (hlt : p.ptCount.toNat < c.maxPoints) (hfit : d.fits c.fieldSizes = true)
    (hdt : Datatype.ofCode c.toProtocol d.dtype ≠ none) : (p.addPoint d).DataOk c := by
  obtain ⟨hlen, hcount, hent⟩ := h.table
  have hsucc : (p.addPoint d).ptCount.toNat = p.ptCount.toNat + 1 := by
    have := Config.maxPoints_lt hc
    simp only [addPoint_ptCount]
    bv_omega
  refine { h with table := ⟨?_, by omega, fun k hk => ?_⟩, sched := ?_, retries := Nat.zero_le _ }
  · rw [addPoint_ptTable, List.length_set, hlen]
  · have hold := hent k hk
    rw [addPoint_ptTable, hsucc]
    rcases Nat.lt_trichotomy k p.ptCount.toNat with hlt' | rfl | hgt
    · rw [if_pos (by omega), List.getElem?_set_ne (by omega)]
      rwa [if_pos hlt'] at hold
    · rw [if_pos (by omega), List.getElem?_set_self (by omega)]
      exact ⟨_, rfl, hfit, hdt, fun x hx => nomatch hx⟩
    · rw [if_neg (by omega), List.getElem?_set_ne (by omega)]
      rwa [if_neg (by omega)] at hold
  · refine schedOk_of_descs h.sched rfl (by omega) fun k e hk he => ⟨e, ?_, rfl⟩
    rw [addPoint_ptTable, List.getElem?_set_ne (by omega), he]

/-- A value of the point's datatype. -/
theorem Poller.DataOk.setValue (h : p.DataOk c) {i : Nat} {e : PointEntry} {x : Value}
    (he : p.ptTable[i]? = some (some e)) (hx : e.desc.takes c.toProtocol x = true) :
    (p.setValue i x).DataOk c := by
  obtain ⟨hlen, hcount, hent⟩ := h.table
  have hself := Poller.setValue_ptTable_self p i x e he
  refine { h with table := ⟨?_, hcount, fun k hk => ?_⟩, sched := ?_ }
  · rw [length_setValue_ptTable, hlen]
  · have hold := hent k hk
    rw [setValue_ptCount]
    by_cases hki : k = i
    · subst hki
      split at hold
      · rename_i hlt
        rw [if_pos hlt]
        obtain ⟨e', he', hfit, hdt, -⟩ := hold
        cases he.symm.trans he'
        exact ⟨_, hself, hfit, hdt, fun y hy => by cases hy; exact hx⟩
      · cases he.symm.trans hold
    · rwa [Poller.setValue_ptTable_of_ne p i x k hki]
  · refine schedOk_of_descs h.sched rfl le_rfl fun k e' hk he' => ?_
    by_cases hki : k = i
    · subst hki
      cases he.symm.trans he'
      exact ⟨_, hself, rfl⟩
    · exact ⟨e', (Poller.setValue_ptTable_of_ne p i x k hki).trans he', rfl⟩

/-- A sound schedule, with which no point is due yet. -/
theorem Poller.DataOk.setSchedule (h : p.DataOk c) {sch : List SchedEntry}
    (hs : (p.setSchedule sch).schedOk c.toProtocol) : (p.setSchedule sch).DataOk c :=
  { h with sched := hs, due := List.nil_sublist _, cursor := Nat.zero_le _, retries := Nat.zero_le _ }

end

/-! ### The schedule (44_scheduler.md) -/

/-- Every entry of a schedule is the one of a scheduled descriptor, at that descriptor's index
(44_scheduler.md R320). -/
theorem mem_scheduleFrom {b : AccessBits} {ds : List PointDesc} {i : Nat} {x : SchedEntry}
    (h : x ∈ scheduleFrom b i ds) :
    ∃ k d, ds[k]? = some d ∧ isScheduled b d = true ∧ x = schedEntryOf (i + k) d := by
  induction ds generalizing i with
  | nil => cases h
  | cons d ds ih =>
    have later (h : x ∈ scheduleFrom b (i + 1) ds) :
        ∃ k d', (d :: ds)[k]? = some d' ∧ isScheduled b d' = true ∧ x = schedEntryOf (i + k) d' := by
      obtain ⟨k, d', hd, hs, rfl⟩ := ih h
      exact ⟨k + 1, d', hd, hs, by rw [Nat.add_right_comm, Nat.add_assoc]⟩
    unfold scheduleFrom at h
    split at h
    · rcases List.mem_cons.1 h with rfl | h
      · exact ⟨0, d, rfl, by assumption, rfl⟩
      · exact later h
    · exact later h

theorem length_scheduleFrom_le (b : AccessBits) (ds : List PointDesc) (i : Nat) :
    (scheduleFrom b i ds).length ≤ ds.length := by
  induction ds generalizing i with
  | nil => exact le_rfl
  | cons d ds ih =>
    have := ih (i + 1)
    unfold scheduleFrom
    split <;> simp only [List.length_cons] <;> omega

/-- A schedule is in ascending index order, as long as its indices fit a byte (10_state.md R46). -/
theorem scheduleFrom_ascending {b : AccessBits} {ds : List PointDesc} {i : Nat} (h : i + ds.length ≤ 256) :
    (scheduleFrom b i ds).Pairwise fun x y => x.idx.toNat < y.idx.toNat := by
  induction ds generalizing i with
  | nil => exact .nil
  | cons d ds ih =>
    rw [List.length_cons] at h
    have tail := ih (i := i + 1) (by omega)
    unfold scheduleFrom
    split
    · refine List.pairwise_cons.2 ⟨fun y hy => ?_, tail⟩
      obtain ⟨k, d', hd, -, rfl⟩ := mem_scheduleFrom hy
      obtain ⟨hk, -⟩ := List.getElem?_eq_some_iff.1 hd
      simp only [schedEntryOf, BitVec.toNat_ofNat]
      omega
    · exact tail

/-- The schedule built from a sound point table is sound. -/
theorem State.schedOk_buildSchedule {s : State} (hc : s.cfg.ok = true)
    (htab : s.poller.tableOk s.cfg.toProtocol) :
    (s.poller.setSchedule s.buildSchedule).schedOk s.cfg.toProtocol := by
  obtain ⟨-, hcount, hent⟩ := htab
  have hmax := Config.maxPoints_lt hc
  refine ⟨scheduleFrom_ascending (by simp; omega), ?_, fun x hx => ?_⟩
  · refine (length_scheduleFrom_le _ _ _).trans ?_
    simpa using hcount
  · obtain ⟨k, d, hd, hsch, rfl⟩ := mem_scheduleFrom hx
    have hk : k < s.poller.ptCount.toNat := by
      simpa using (List.getElem?_eq_some_iff.1 hd).1
    have hentry := hent k (by omega)
    rw [if_pos hk] at hentry
    obtain ⟨e, he, -⟩ := hentry
    have hdesc : d = e.desc := by
      rw [List.getElem?_map, List.getElem?_range hk, Option.map_some, State.descAt_some he] at hd
      exact (Option.some.inj hd).symm
    subst hdesc
    have hidx : (BitVec.ofNat 8 (0 + k)).toNat = k := by
      rw [BitVec.toNat_ofNat, Nat.mod_eq_of_lt (by omega), Nat.zero_add]
    have hpos : e.desc.samplingTime ≠ 0 := by
      simp only [isScheduled, Bool.and_eq_true, bne_iff_ne] at hsch
      exact hsch.2
    refine ⟨hidx.trans_lt hk, ?_, le_rfl, e, by rw [← he]; exact congrArg _ hidx, hsch, rfl⟩
    have : e.desc.samplingTime.toNat ≠ 0 := fun h => hpos (BitVec.eq_of_toNat_eq h)
    exact Nat.one_le_iff_ne_zero.2 this

@[simp] theorem SchedEntry.tick_idx (x : SchedEntry) : x.tick.idx = x.idx := by
  unfold SchedEntry.tick; split <;> rfl

@[simp] theorem SchedEntry.tick_interval (x : SchedEntry) : x.tick.interval = x.interval := by
  unfold SchedEntry.tick; split <;> rfl

/-- A tick keeps a countdown in the range `1 .. interval` (44_scheduler.md R321, R322). -/
theorem SchedEntry.tick_countdown {x : SchedEntry} (hpos : 1 ≤ x.countdown.toNat)
    (hle : x.countdown.toNat ≤ x.interval.toNat) :
    1 ≤ x.tick.countdown.toNat ∧ x.tick.countdown.toNat ≤ x.interval.toNat := by
  unfold SchedEntry.tick
  split
  · exact ⟨hpos.trans hle, le_rfl⟩
  · dsimp only
    bv_omega

theorem map_idx_scheduleTick (sch : List SchedEntry) :
    (scheduleTick sch).map SchedEntry.idx = sch.map SchedEntry.idx := by
  simp [scheduleTick, Function.comp_def]

/-- What a tick of the schedule does keeps it sound. -/
theorem Poller.DataOk.setDue {c : Config} {p : Poller} (h : p.DataOk c) :
    (p.setDue (scheduleTick p.sched) (scheduleDue p.sched)).DataOk c := by
  obtain ⟨hasc, hlen, hent⟩ := h.sched
  refine { h with sched := ⟨?_, ?_, fun x hx => ?_⟩, due := ?_ }
  · simpa [scheduleTick, List.pairwise_map] using hasc
  · simpa [scheduleTick] using hlen
  · obtain ⟨y, hy, rfl⟩ := List.mem_map.1 hx
    obtain ⟨hidx, hpos, hle, e, he, hsch, hint⟩ := hent y hy
    obtain ⟨hpos', hle'⟩ := SchedEntry.tick_countdown hpos hle
    exact ⟨by simpa using hidx, hpos', by simpa using hle', e, by simpa using he, hsch, by simpa using hint⟩
  · rw [setDue_due, setDue_sched, map_idx_scheduleTick]
    exact List.filter_sublist.map _

end Sys2Proof.Machine
end

section
/-!
The invariant of the block is kept by every step (10_state.md R41 to R54, R62, R63): each handler keeps the rules
that hold in every state and prepares the states its result can lead to.
-/

namespace Sys2Proof.Machine

/-! ### What each handler establishes -/

/-- A handler of state `f` leaves sound registers, ready for every state its result can lead to. -/
structure Keeps (c : Config) (f : FsmState) (h : Handled) : Prop where
  data : h.state.poller.DataOk c
  ready : ∀ g, f.target h.result = .used g → h.state.poller.Ready c g

theorem Keeps.of_target {c : Config} {f g : FsmState} {h : Handled} (hg : f.target h.result = .used g)
    (hd : h.state.poller.DataOk c) (hr : h.state.poller.Ready c g) : Keeps c f h :=
  ⟨hd, fun g' hg' => by cases hg.symm.trans hg'; exact hr⟩

/-- An error leads to INIT, which asks for nothing (43_poller_fsm.md R272). -/
theorem Keeps.of_error {c : Config} {f : FsmState} {h : Handled} (hres : h.result = .error)
    (hd : h.state.poller.DataOk c) : Keeps c f h :=
  .of_target (g := .init) (by rw [hres]; cases f <;> rfl) hd trivial

theorem Poller.ready_goto {c : Config} {p : Poller} {g : FsmState} (h : p.Ready c g) (x : BitVec 4) :
    (p.goto x).Ready c g := by cases g <;> exact h

/-- The driver takes what the handler leaves to the state it selects. -/
theorem Keeps.goto {c : Config} {f g : FsmState} {h : Handled} (hk : Keeps c f h)
    (hg : f.target h.result = .used g) : (h.state.poller.goto g.code).Good c :=
  ⟨g, rfl, hk.data.goto _, Poller.ready_goto (hk.ready g hg) _⟩

section
variable {s : State}

/-- A wait state keeps what it and the states after it ask for, where only `tick_cnt` counts for its own stay
(43_poller_fsm.md R276). -/
theorem Keeps.waitAns {f proc retry : FsmState} (hnext : (fsmRow f).next = .used proc)
    (habort : (fsmRow f).abort = .used retry) (hd : s.poller.DataOk s.cfg) (ha : s.poller.Armed s.cfg)
    (hproc : ∀ n, Poller.Ready s.cfg { s.poller with tickCnt := n } proc)
    (hretry : ∀ n, Poller.Ready s.cfg { s.poller with tickCnt := n } retry)
    (hstay : ∀ n, Poller.Armed s.cfg { s.poller with tickCnt := n } →
      Poller.Ready s.cfg { s.poller with tickCnt := n } f) : Keeps s.cfg f (waitAns s) := by
  rcases waitAns_cases s with ⟨-, h⟩ | ⟨-, ⟨hle, h⟩ | ⟨-, -, h⟩ | ⟨-, -, h⟩⟩ <;> rw [h]
  · exact .of_target hnext hd (hproc _)
  · refine .of_target (g := f) rfl (hd.countTick ha) (hstay _ ⟨ha.1, ?_⟩)
    rw [← ha.1]
    exact hle
  · exact .of_target hnext (hd.countTick ha) (hproc _)
  · exact .of_target habort (hd.countTick ha) (hretry _)

/-- A counted transmission that is not the last one too many leaves an armed poller that may still be trying
(43_poller_fsm.md R292, R306). -/
theorem Keeps.countedSend {f g : FsmState} {a : Byte} (hc : s.cfg.ok = true)
    (hnext : (fsmRow f).next = .used g) (hd : s.poller.DataOk s.cfg) (ht : s.poller.Trying s.cfg)
    (hready : ∀ p : Poller, p.Trying s.cfg → p.Armed s.cfg → p.brd = s.poller.brd →
      p.ptCount = s.poller.ptCount → p.due = s.poller.due → p.cursor = s.poller.cursor → p.Ready s.cfg g) :
    Keeps s.cfg f (countedSend s a) := by
  rcases countedSend_cases s a with ⟨-, h⟩ | ⟨hle, h⟩ <;> rw [h]
  · exact .of_error rfl (hd.countRetry ht)
  · exact .of_target hnext ((hd.countRetry ht).arm hc)
      (hready _ hle (Poller.armed_arm hc) rfl rfl rfl rfl)

theorem keeps_init (hd : s.poller.DataOk s.cfg) :
    Keeps s.cfg .init (.ok (s.withPoller (s.poller.clearSession s.cfg.maxPoints))) :=
  .of_target (g := .sendItfVer) rfl hd.clearSession ⟨Nat.zero_le _, rfl⟩

theorem keeps_procItfVer (hd : s.poller.DataOk s.cfg) (hr : s.poller.Greeting s.cfg) (buf : Frame) :
    Keeps s.cfg .procItfVer (judgeItfVer (s.answer buf) s.crcIdle) := by
  rcases judgeItfVer_cases (s.answer buf) s.crcIdle with ⟨-, h⟩ | ⟨-, e, h⟩ <;> rw [h]
  · exact .of_target (g := .sendBrdId) rfl hd hr
  · exact .of_error rfl hd

/-- What an OK response's fields are (41_codec.md R222, R223). -/
theorem State.fieldsFit_answer {a : Byte} {f : RspFields} {buf : Frame}
    (h : s.answer buf = .ok ⟨a, s.cfg.status.ok, f⟩) : fieldsFit s.cfg.toProtocol s.pollerView a f := by
  rcases unpackResponse_ok h with ⟨hne, -⟩ | ⟨-, hfit⟩
  · exact absurd rfl hne
  · exact hfit

/-- A board identity has names of their sizes, whatever the address it came from. -/
theorem BoardId.fits_of_fieldsFit {p : Protocol} {v : PointView} {a : Byte} {b : BoardId}
    (h : fieldsFit p v a (.board b)) : b.fits p.fieldSizes = true := by
  unfold fieldsFit at h
  split at h <;> simp_all

theorem keeps_procBrdId (hd : s.poller.DataOk s.cfg) (hr : s.poller.Greeting s.cfg) (buf : Frame) :
    Keeps s.cfg .procBrdId (judgeBrdId (s.answer buf) s.crcIdle) := by
  obtain ⟨htry, hzero⟩ := hr
  rcases judgeBrdId_cases (s.answer buf) s.crcIdle with
    ⟨b, hb, hpos, hmax, h⟩ | ⟨b, hb, -, h⟩ | ⟨-, h⟩ <;> rw [h]
  · have hdb := hd.setBoard (BoardId.fits_of_fieldsFit (s.fieldsFit_answer hb))
    have hclear : (s.poller.setBoard b).clearCount = s.poller.setBoard b := Poller.clearCount_of_zero hzero
    refine .of_target (g := .sendPtDesc) rfl ?_ ⟨htry, b, rfl, hpos, hmax, Nat.zero_le _⟩
    exact (congrArg (Poller.DataOk s.cfg) hclear).mpr hdb
  · exact .of_error rfl (hd.setBoard (BoardId.fits_of_fieldsFit (s.fieldsFit_answer hb)))
  · exact .of_error rfl hd

theorem keeps_sendPtDesc (hc : s.cfg.ok = true) (hd : s.poller.DataOk s.cfg) (hr : s.poller.Session s.cfg) :
    Keeps s.cfg .sendPtDesc (handleSendPtDesc s) := by
  rcases handleSendPtDesc_cases s with ⟨-, h⟩ | ⟨hlt, h⟩ <;> rw [h]
  · exact .of_target (g := .buildSch) rfl hd hr
  · obtain ⟨htry, b, hb, hpos, hmax, hle⟩ := hr
    refine Keeps.countedSend (s := s.nextFree) hc rfl hd htry fun p ht ha hbrd hcount _ _ => ?_
    rw [State.numOfPoints_some hb] at hlt
    refine ⟨⟨ht, b, hbrd.trans hb, hpos, hmax, hcount ▸ hle⟩, fun b' hb' => ?_, ha⟩
    cases (hb.symm.trans hbrd.symm).trans hb'
    exact hcount ▸ hlt

theorem keeps_procPtDesc (hc : s.cfg.ok = true) (hd : s.poller.DataOk s.cfg) (hr : s.poller.Session s.cfg)
    (hmore : s.poller.Discovering) (buf : Frame) :
    Keeps s.cfg .procPtDesc (judgePtDesc (s.answer buf) s.crcIdle) := by
  rcases judgePtDesc_cases (s.answer buf) s.crcIdle with ⟨f, hf, h⟩ | ⟨-, h⟩ <;> rw [h]
  · obtain ⟨-, b, hb, hpos, hmax, -⟩ := hr
    have hlt := hmore b hb
    have hfit := s.fieldsFit_answer hf
    have hclass := classify_pointDescAddr hc (hlt.trans_le hmax)
    simp only [State.crcIdle_cfg, State.crcIdle_poller, fieldsFit, hclass] at hfit
    obtain ⟨d, rfl, hsize, hdt⟩ := hfit
    refine .of_target (g := .sendPtDesc) rfl (hd.addPoint hc (hlt.trans_le hmax) hsize hdt)
      ⟨Nat.zero_le _, b, hb, hpos, hmax, ?_⟩
    show (s.poller.ptCount + 1).toNat ≤ _
    bv_omega
  · exact .of_target (g := .sendPtDesc) rfl hd hr

theorem keeps_buildSch (hc : s.cfg.ok = true) (hd : s.poller.DataOk s.cfg) (hr : s.poller.Session s.cfg) :
    Keeps s.cfg .buildSch (handleBuildSch s) :=
  .of_target (g := .runSch) rfl (hd.setSchedule (State.schedOk_buildSchedule hc hd.table))
    ⟨Nat.zero_le _, hr.2⟩

theorem keeps_runSch (hd : s.poller.DataOk s.cfg) (hr : s.poller.Session s.cfg) :
    Keeps s.cfg .runSch (handleRunSch s) := by
  simp only [handleRunSch]
  split
  · exact .of_target (g := .sendPtVal) rfl hd.setDue.startRound ⟨⟨Nat.zero_le _, hr.2⟩, Nat.zero_le _⟩
  · exact .of_target (g := .runSch) rfl hd.setDue hr

theorem keeps_sendPtVal (hc : s.cfg.ok = true) (hd : s.poller.DataOk s.cfg) (hr : s.poller.Session s.cfg) :
    Keeps s.cfg .sendPtVal (handleSendPtVal s) := by
  obtain ⟨htry, hboard⟩ := hr
  simp only [handleSendPtVal]
  split
  · exact .of_target (g := .runSch) rfl hd ⟨htry, hboard⟩
  · rename_i hi
    obtain ⟨hlt, -⟩ := List.getElem?_eq_some_iff.1 hi
    refine Keeps.countedSend hc rfl hd htry fun p ht ha hbrd hcount hdue hcur => ?_
    exact ⟨⟨ht, hbrd ▸ hcount ▸ hboard⟩, by rwa [Poller.Acquiring, hcur, hdue], ha⟩

/-- The point being acquired is one the poller holds an entry for. -/
theorem State.dueIndex_entry (hd : s.poller.DataOk s.cfg) (ha : s.poller.Acquiring) :
    s.dueIndex.toNat < s.poller.ptCount.toNat ∧
      ∃ e, s.poller.ptTable[s.dueIndex.toNat]? = some (some e) := by
  have hlt : s.poller.cursor.toNat < s.poller.due.length := ha
  rw [State.dueIndex_some (List.getElem?_eq_getElem hlt)]
  obtain ⟨x, hx, hidx⟩ := List.mem_map.1 (hd.due.mem (List.getElem_mem hlt))
  obtain ⟨hcount, -, -, e, he, -⟩ := hd.sched.2.2 x hx
  rw [← hidx]
  exact ⟨hcount, e, he⟩

/-- The value read for a discovered point is one of its datatype. -/
theorem State.takes_answer (hc : s.cfg.ok = true) (hd : s.poller.DataOk s.cfg) {i : BitVec 8} {e : PointEntry}
    {f : RspFields} {buf : Frame} (hi : i.toNat < s.poller.ptCount.toNat)
    (he : s.poller.ptTable[i.toNat]? = some (some e))
    (h : s.answer buf = .ok ⟨s.cfg.addrs.readPointDataBase + i, s.cfg.status.ok, f⟩) :
    ∃ x, f = .value x ∧ e.desc.takes s.cfg.toProtocol x = true := by
  have hfit := s.fieldsFit_answer h
  have hclass := classify_readPointAddr hc (hi.trans_le hd.table.2.1)
  simp only [fieldsFit, hclass] at hfit
  obtain ⟨x, rfl, hdt, hsize⟩ := hfit
  refine ⟨x, rfl, ?_⟩
  have hview : s.pollerView.dtOf i.toNat = Datatype.ofCode s.cfg.toProtocol e.desc.dtype := by
    simp [State.pollerView, PointView.dtOf, hi, he]
  simp [PointDesc.takes, ← hview, hdt, hsize]

theorem keeps_procPtVal (hc : s.cfg.ok = true) (hd : s.poller.DataOk s.cfg) (hr : s.poller.Session s.cfg)
    (ha : s.poller.Acquiring) (buf : Frame) :
    Keeps s.cfg .procPtVal (judgePtVal s.dueIndex (s.answer buf) s.crcIdle.nextFree) := by
  have hlt : s.poller.cursor.toNat < s.poller.due.length := ha
  have hadv := Poller.toNat_advance hd hc ha
  rcases judgePtVal_cases s.dueIndex (s.answer buf) s.crcIdle.nextFree with
    ⟨-, h⟩ | ⟨r, hans, ⟨-, h⟩ | ⟨-, -, h⟩ | ⟨haddr, hst, h⟩⟩ <;> rw [h]
  · exact .of_target (g := .sendPtVal) rfl hd ⟨hr, hlt.le⟩
  · exact .of_target (g := .sendPtVal) rfl (hd.advance hc ha) ⟨hr, hadv.trans_le hlt⟩
  · exact .of_target (g := .sendPtVal) rfl hd ⟨hr, hlt.le⟩
  · obtain ⟨hi, e, he⟩ := State.dueIndex_entry hd ha
    obtain ⟨a, st, f⟩ := r
    cases haddr
    cases hst
    obtain ⟨x, rfl, hx⟩ := State.takes_answer hc hd hi he hans
    refine .of_target (g := .sendPtVal) rfl ((hd.setValue he hx).clearRetries.advance hc ha) ?_
    exact ⟨⟨Nat.zero_le _, hr.2⟩, hadv.trans_le hlt⟩

end

/-- Every handler keeps the rules and prepares the states its result can lead to. -/
theorem FsmState.handler_keeps {f : FsmState} {s : State} {h : Handled} (hc : s.cfg.ok = true)
    (hd : s.poller.DataOk s.cfg) (hr : s.poller.Ready s.cfg f) (hh : f.handler s = .ok h) :
    Keeps s.cfg f h := by
  cases f with
  | init => cases hh; exact keeps_init hd
  | sendItfVer => cases hh; exact .of_target (g := .waitItfVerAns) rfl (hd.arm hc) ⟨hr, Poller.armed_arm hc⟩
  | sendBrdId => cases hh; exact .of_target (g := .waitBrdIdAns) rfl (hd.arm hc) ⟨hr, Poller.armed_arm hc⟩
  | waitItfVerAns | waitBrdIdAns =>
    cases hh
    obtain ⟨hg, ha⟩ := hr
    exact .waitAns rfl rfl hd ha (fun _ => hg) (fun _ => hg) fun _ ha => ⟨hg, ha⟩
  | waitPtDescAns =>
    cases hh
    obtain ⟨hs, hm, ha⟩ := hr
    exact .waitAns rfl rfl hd ha (fun _ => ⟨hs, hm⟩) (fun _ => hs) fun _ ha => ⟨hs, hm, ha⟩
  | waitPtValAns =>
    cases hh
    obtain ⟨hs, hq, ha⟩ := hr
    exact .waitAns rfl rfl hd ha (fun _ => ⟨hs, hq⟩) (fun _ => ⟨hs, Nat.le_of_lt hq⟩) fun _ ha => ⟨hs, hq, ha⟩
  | procItfVer => obtain ⟨buf, -, rfl⟩ := processAnswer_ok hh; exact keeps_procItfVer hd hr buf
  | procBrdId => obtain ⟨buf, -, rfl⟩ := processAnswer_ok hh; exact keeps_procBrdId hd hr buf
  | procPtDesc => obtain ⟨buf, -, rfl⟩ := processAnswer_ok hh; exact keeps_procPtDesc hc hd hr.1 hr.2 buf
  | procPtVal => obtain ⟨buf, -, rfl⟩ := handleProcPtVal_ok hh; exact keeps_procPtVal hc hd hr.1 hr.2 buf
  | sendPtDesc => cases hh; exact keeps_sendPtDesc hc hd hr
  | buildSch => cases hh; exact keeps_buildSch hc hd hr
  | runSch => cases hh; exact keeps_runSch hd hr
  | sendPtVal => cases hh; exact keeps_sendPtVal hc hd hr.1

/-! ### The step -/

/-- A tick keeps the poller's part of the invariant. -/
theorem onTick_good {s t : State} (hc : s.cfg.ok = true) (hg : s.poller.Good s.cfg) (ht : onTick s = .next t) :
    t.poller.Good s.cfg := by
  obtain ⟨f, h, g, hf, hh, hgt, rfl⟩ := onTick_handler ht
  obtain ⟨f', hf', hd, hr⟩ := hg
  cases FsmState.code_injective (hf.symm.trans hf')
  exact (FsmState.handler_keeps hc hd hr hh).goto hgt

theorem Poller.Good.push {c : Config} {p : Poller} (h : p.Good c) (hc : c.ok = true)
    (hlt : p.rxCount.toNat < c.rxBufSize) (b : Byte) : (p.push b).Good c := by
  obtain ⟨f, hf, hd, hr⟩ := h
  exact ⟨f, hf, hd.push hc hlt b, by cases f <;> exact hr⟩

theorem Poller.Good.flagFrame {c : Config} {p : Poller} (h : p.Good c) : p.flagFrame.Good c := by
  obtain ⟨f, hf, hd, hr⟩ := h
  exact ⟨f, hf, hd.flagFrame, by cases f <;> exact hr⟩

/-- Every event keeps the poller's part of the invariant. -/
theorem onEvent_good {e : Event} {s t : State} (hc : s.cfg.ok = true) (hg : s.poller.Good s.cfg)
    (ht : onEvent e s = .next t) : t.poller.Good s.cfg := by
  cases e with
  | reset => cases ht; exact ⟨.init, rfl, .reset, trivial⟩
  | tick => exact onTick_good hc hg ht
  | pollerRxByte b =>
    rcases onPollerRxByte_cases b s with ⟨hlt, h⟩ | ⟨-, h⟩ <;> cases h.symm.trans ht
    · exact hg.push hc hlt b
    · exact hg
  | pollerRxIdle =>
    simp only [onEvent, onPollerRxIdle] at ht
    split at ht <;> cases ht
    · exact hg.flagFrame
    · exact hg
  | responderRxByte _ | responderRxIdle | appSet _ => rw [(onEvent_responders rfl ht).poller]; exact hg

/-- Every event keeps the responder's receive buffer canonical and its counter within it. -/
theorem onEvent_srxOk {e : Event} {s t : State} (hc : s.cfg.ok = true) (hs : s.srxOk)
    (ht : onEvent e s = .next t) : t.srxOk := by
  rcases e.side with rfl | he | he
  · cases ht; exact ⟨Memory.wf_nil, Nat.zero_le _⟩
  · obtain ⟨hcfg, hresp⟩ := onEvent_pollers he ht
    simpa only [State.srxOk, hcfg, hresp] using hs
  · exact (onEvent_responders he ht).srx hc hs

/-- Settles O58: the invariant in its two parts, each kept by every event. -/
theorem stepKeepsTheInvariant : Obligations.StepKeepsTheInvariant := by
  intro s t hinv ht
  obtain ⟨-, -, ⟨-, rfl⟩ | ⟨e, es, -, hev⟩⟩ := step_next ht
  · exact hinv
  obtain ⟨hc, hgood, hdb, hsrx⟩ := s.inv_iff.1 hinv
  have hcfg := step_cfg ht
  refine t.inv_iff.2 ⟨hcfg ▸ hc, hcfg ▸ ?_, step_databaseOk hdb ht, ?_⟩
  · exact onEvent_good (s := s.withEvents es) hc hgood hev
  · exact onEvent_srxOk (s := s.withEvents es) hc hsrx hev

end Sys2Proof.Machine
end

section
/-!
Two-run noninterference of the requests, and what rests on it: a repeated request (20_memory.md R100).
-/

namespace Sys2Proof.Machine

/-! ### A request reads the configuration and the responder only -/

/-- Two runs that stop for the same reason, or leave the same responder after the same one frame of answer. -/
inductive SameAnswer (s u : State) : Host.Outcome State Fault Refusal → Host.Outcome State Fault Refusal → Prop
  | next {t v : State} (f : Frame) (ht : t.rTx = s.rTx ++ [f]) (hv : v.rTx = u.rTx ++ [f])
      (hr : v.responder = t.responder) : SameAnswer s u (.next t) (.next v)
  | fault (e : Fault) : SameAnswer s u (.fault e) (.fault e)
  | refused (e : Refusal) : SameAnswer s u (.refused e) (.refused e)

/-- A run that answers as one that completes completes too. -/
theorem SameAnswer.exists_next {s u t : State} {o : Host.Outcome State Fault Refusal}
    (h : SameAnswer s u (.next t) o) : ∃ v f, o = .next v ∧ t.rTx = s.rTx ++ [f] ∧ v.rTx = u.rTx ++ [f] ∧
      v.responder = t.responder := by
  cases h with
  | next f ht hv hr => exact ⟨_, f, rfl, ht, hv, hr⟩

/-- Both runs take the same branch. -/
theorem SameAnswer.ite {s u : State} {c : Prop} [Decidable c] {a b a' b' : Host.Outcome State Fault Refusal}
    (ha : SameAnswer s u a a') (hb : SameAnswer s u b b') :
    SameAnswer s u (if c then a else b) (if c then a' else b') := by
  split
  · exact ha
  · exact hb

section
variable {s u : State} (hcfg : u.cfg = s.cfg) (hresp : u.responder = s.responder)
include hcfg hresp

theorem SameAnswer.respond (a : Byte) (r : Except DispatchError RspFields) :
    SameAnswer s u (.next (s.respond a r)) (.next (u.respond a r)) :=
  .next (replyFrame s.cfg.toProtocol a r) rfl (by rw [State.respond_rTx, hcfg]) hresp

theorem SameAnswer.acceptWrite (k : BitVec 8) (x : Value) :
    SameAnswer s u (.next (s.acceptWrite k x)) (.next (u.acceptWrite k x)) :=
  .next _ (s.acceptWrite_rTx k x) (by rw [State.acceptWrite_rTx, hcfg]) (by simp [hresp])

theorem SameAnswer.serveUnmapped (a : Byte) : SameAnswer s u (serveUnmapped a s) (serveUnmapped a u) := by
  unfold Machine.serveUnmapped
  rw [hcfg]
  exact .ite (.respond hcfg hresp _ _) (.refused _)

/-- Stage 1 leaves both runs to the handler with the same database entry (42_dispatcher.md R240). -/
theorem SameAnswer.servePoint (base : Byte) (k : BitVec 8)
    {serve serve' : DbEntry → Host.Outcome State Fault Refusal}
    (h : ∀ e, SameAnswer s u (serve e) (serve' e)) :
    SameAnswer s u (servePoint base k s serve) (servePoint base k u serve') := by
  unfold Machine.servePoint
  rw [hcfg, hresp]
  refine .ite ?_ (.ite (.respond hcfg hresp _ _) (.refused _))
  cases s.responder.ptDb[k.toNat]? with
  | none => exact .fault _
  | some e => exact h e

theorem SameAnswer.execPointDesc (k : BitVec 8) :
    SameAnswer s u (execPointDesc k s) (execPointDesc k u) := by
  unfold Machine.execPointDesc
  rw [hcfg]
  exact .servePoint hcfg hresp _ k fun e => .respond hcfg hresp _ _

theorem SameAnswer.execReadPointData (k : BitVec 8) :
    SameAnswer s u (execReadPointData k s) (execReadPointData k u) := by
  unfold Machine.execReadPointData
  rw [hcfg]
  exact .servePoint hcfg hresp _ k fun e => .ite (.respond hcfg hresp _ _) (.respond hcfg hresp _ _)

theorem SameAnswer.execWritePointData (k : BitVec 8) (x : Option Value) :
    SameAnswer s u (execWritePointData k x s) (execWritePointData k x u) := by
  unfold Machine.execWritePointData
  rw [hcfg]
  refine .servePoint hcfg hresp _ k fun e => .ite ?_ (.respond hcfg hresp _ _)
  cases x with
  | none => exact .refused _
  | some v => exact .ite (.acceptWrite hcfg hresp k v) (.refused _)

/-- Whatever else the two states hold (the poller, the link, the CRC register), a request has the same outcome
in both. -/
theorem exec_sameAnswer {i : Instr} (hi : requestAddr s.cfg.addrs i ≠ none) :
    SameAnswer s u (exec i s) (exec i u) := by
  cases i with
  | itfVersion | brdId | brdStatus | batStatus | batCharge | svrMainAddr | svrSecAddr | brdCmd _ | dspWrite _
  | radioStatus _ | radioStrength _ =>
    -- a singleton's address and fields come from the configuration and the responder
    cases s
    cases u
    cases hcfg
    cases hresp
    refine .respond ?_ ?_ _ _ <;> rfl
  | unmappedLo0B | unmappedLo0C _ | unmappedLo10 _ | unmappedHi _ => exact .serveUnmapped hcfg hresp _
  | pointDesc k => exact .execPointDesc hcfg hresp k
  | readPointData k => exact .execReadPointData hcfg hresp k
  | writePointData k x => exact .execWritePointData hcfg hresp k x
  | fsmInit | fsmSendItfVer | fsmWaitItfVerAns | fsmProcItfVer | fsmSendBrdId | fsmWaitBrdIdAns | fsmProcBrdId
  | fsmSendPtDesc | fsmWaitPtDescAns | fsmProcPtDesc | fsmBuildSch | fsmRunSch | fsmSendPtVal | fsmWaitPtValAns
  | fsmProcPtVal => exact absurd rfl hi

end

/-! ### Repeated writes (20_memory.md R99, R100) -/

/-- Storing a value twice is storing it once. -/
theorem Responder.setValue_setValue (r : Responder) (k : Nat) (x : Value) :
    (r.setValue k x).setValue k x = r.setValue k x := by
  simp only [Responder.setValue, List.modify_modify_eq]
  rfl

/-- A write of a value of the point's datatype that its rights allow is accepted (42_dispatcher.md R250). -/
theorem exec_writePointData_accepted {s : State} {k : BitVec 8} {x : Value} {e : DbEntry}
    (hk : k.toNat < s.cfg.np) (he : s.responder.ptDb[k.toNat]? = some e)
    (hw : includesWrite s.cfg.access e.desc.accessRights = true)
    (hx : e.desc.takes s.cfg.toProtocol x = true) :
    exec (.writePointData k (some x)) s = .next (s.acceptWrite k x) := by
  simp only [exec, execWritePointData, servePoint_entry hk he, if_pos hw, if_pos hx]

/-- A write reads only the descriptor of its point, so one that was accepted is accepted again. -/
theorem exec_acceptWrite {s : State} {k : BitVec 8} {x : Value} {e : DbEntry}
    (hk : k.toNat < s.cfg.np) (he : s.responder.ptDb[k.toNat]? = some e)
    (hw : includesWrite s.cfg.access e.desc.accessRights = true)
    (hx : e.desc.takes s.cfg.toProtocol x = true) :
    exec (.writePointData k (some x)) (s.acceptWrite k x) = .next ((s.acceptWrite k x).acceptWrite k x) :=
  exec_writePointData_accepted (e := { e with value := x }) hk (by simp [he]) hw hx

/-- Settles O25: a request that changed nothing runs again from a state with the same responder, and an accepted
write stores the value that its point now holds. -/
theorem repeatedRequestIsIdempotent : Obligations.RepeatedRequestIsIdempotent := by
  intro i s t hi ht
  obtain ⟨a, ha⟩ := Option.ne_none_iff_exists'.1 hi
  rcases exec_request ha ht with ⟨r, rfl⟩ | ⟨k, x, e, rfl, hk, he, hw, hx, rfl⟩
  · have hsame := exec_sameAnswer (s := s) (u := s.respond a r) rfl rfl hi
    rw [ht] at hsame
    exact hsame.exists_next
  · exact ⟨_, _, exec_acceptWrite hk he hw hx, rfl, rfl, Responder.setValue_setValue _ _ _⟩

end Sys2Proof.Machine
end

section
/-!
The address decoder (30_encoding.md R130, R131): where addresses do not overlap, the class of an address and the
address of a class determine each other; under the reference map the range tests are tests of bits 7:5.
-/

namespace Sys2Proof

/-! ### The class of an address that is built from its class -/

/-- An address lies in at most one of two ranges that do not overlap. -/
theorem inRange_disjoint {n : Nat} {b c a : Byte} (h : b.toNat + n ≤ c.toNat ∨ c.toNat + n ≤ b.toNat)
    (hb : inRange n b a = true) : inRange n c a = false := by
  simp only [inRange, decide_eq_true_eq, decide_eq_false_iff_not] at *
  omega

/-- The eleven singletons are all there are. -/
theorem Singleton.mem_all (r : Singleton) : r ∈ Singleton.all := by cases r <;> decide

/-- A singleton's address is one of the map's. -/
theorem Singleton.addr_mem (m : AddrMap) (r : Singleton) : r.addr m ∈ m.singles :=
  List.mem_map_of_mem r.mem_all

/-- The singleton of a singleton's address, when no two share one. -/
theorem Singleton.ofAddr_addr {m : AddrMap} (h : m.singles.Nodup) (r : Singleton) :
    Singleton.ofAddr m (r.addr m) = some r := by
  cases h' : Singleton.ofAddr m (r.addr m) with
  | none => exact absurd (List.find?_eq_none.1 h' r r.mem_all) (by simp)
  | some q =>
    have hq : q.addr m = r.addr m := by simpa using List.find?_some h'
    exact congrArg some (List.inj_on_of_nodup_map h q.mem_all r.mem_all hq)

section
variable {p : Protocol} (h : p.addrs.ok p.maxPoints = true)
include h

theorem classify_pointDescBase_add {i : BitVec 8} (hi : i.toNat < p.maxPoints) :
    classify p (p.addrs.pointDescBase + i) = .pointDesc i := by
  obtain ⟨-, hin, -, -⟩ := (AddrMap.ok_iff _ _).1 h
  have hr := (inRange_iff (hin p.addrs.pointDescBase (by simp [AddrMap.bases]))).2 ⟨i, hi, rfl⟩
  simp [classify, hr]

theorem classify_readPointDataBase_add {i : BitVec 8} (hi : i.toNat < p.maxPoints) :
    classify p (p.addrs.readPointDataBase + i) = .readPoint i := by
  obtain ⟨-, hin, hdis, -⟩ := (AddrMap.ok_iff _ _).1 h
  have hr := (inRange_iff (hin p.addrs.readPointDataBase (by simp [AddrMap.bases]))).2 ⟨i, hi, rfl⟩
  simp only [AddrMap.bases, List.pairwise_cons, List.mem_cons, List.not_mem_nil, or_false, forall_eq_or_imp,
    forall_eq] at hdis
  obtain ⟨⟨hdr, -⟩, -⟩ := hdis
  simp [classify, inRange_disjoint hdr.symm hr, hr]

theorem classify_writePointDataBase_add {i : BitVec 8} (hi : i.toNat < p.maxPoints) :
    classify p (p.addrs.writePointDataBase + i) = .writePoint i := by
  obtain ⟨-, hin, hdis, -⟩ := (AddrMap.ok_iff _ _).1 h
  have hr := (inRange_iff (hin p.addrs.writePointDataBase (by simp [AddrMap.bases]))).2 ⟨i, hi, rfl⟩
  simp only [AddrMap.bases, List.pairwise_cons, List.mem_cons, List.not_mem_nil, or_false, forall_eq_or_imp,
    forall_eq] at hdis
  obtain ⟨⟨-, hdw⟩, hrw, -⟩ := hdis
  simp [classify, inRange_disjoint hdw.symm hr, inRange_disjoint hrw.symm hr, hr]

theorem classify_singletonAddr (r : Singleton) : classify p (r.addr p.addrs) = .singleton r := by
  obtain ⟨hnodup, -, -, hsep⟩ := (AddrMap.ok_iff _ _).1 h
  have hout : ∀ b ∈ p.addrs.bases, inRange p.maxPoints b (r.addr p.addrs) = false :=
    fun b hb => hsep b hb _ (r.addr_mem _)
  simp only [AddrMap.bases, List.mem_cons, List.not_mem_nil, or_false, forall_eq_or_imp, forall_eq] at hout
  obtain ⟨hd, hr, hw⟩ := hout
  simp [classify, hd, hr, hw, Singleton.ofAddr_addr hnodup]

/-! ### Each class holds exactly the addresses built from it -/

theorem classify_eq_pointDesc_iff (a : Byte) (i : BitVec 8) :
    classify p a = .pointDesc i ↔ i.toNat < p.maxPoints ∧ a = p.addrs.pointDescBase + i := by
  refine ⟨fun hc => ?_, fun ⟨hi, ha⟩ => ha ▸ classify_pointDescBase_add h hi⟩
  rcases classify_cases p a with ⟨j, hj, ha⟩ | ⟨j, hj, -⟩ | ⟨j, hj, -⟩ | ⟨r, hj, -⟩ | ⟨hj, -⟩ <;>
    cases hc.symm.trans hj
  exact ha

theorem classify_eq_readPoint_iff (a : Byte) (i : BitVec 8) :
    classify p a = .readPoint i ↔ i.toNat < p.maxPoints ∧ a = p.addrs.readPointDataBase + i := by
  refine ⟨fun hc => ?_, fun ⟨hi, ha⟩ => ha ▸ classify_readPointDataBase_add h hi⟩
  rcases classify_cases p a with ⟨j, hj, -⟩ | ⟨j, hj, ha⟩ | ⟨j, hj, -⟩ | ⟨r, hj, -⟩ | ⟨hj, -⟩ <;>
    cases hc.symm.trans hj
  exact ha

theorem classify_eq_writePoint_iff (a : Byte) (i : BitVec 8) :
    classify p a = .writePoint i ↔ i.toNat < p.maxPoints ∧ a = p.addrs.writePointDataBase + i := by
  refine ⟨fun hc => ?_, fun ⟨hi, ha⟩ => ha ▸ classify_writePointDataBase_add h hi⟩
  rcases classify_cases p a with ⟨j, hj, -⟩ | ⟨j, hj, -⟩ | ⟨j, hj, ha⟩ | ⟨r, hj, -⟩ | ⟨hj, -⟩ <;>
    cases hc.symm.trans hj
  exact ha

theorem classify_eq_singleton_iff (a : Byte) (r : Singleton) :
    classify p a = .singleton r ↔ a = r.addr p.addrs := by
  refine ⟨fun hc => ?_, fun ha => ha ▸ classify_singletonAddr h r⟩
  rcases classify_cases p a with ⟨j, hj, -⟩ | ⟨j, hj, -⟩ | ⟨j, hj, -⟩ | ⟨q, hj, ha⟩ | ⟨hj, -⟩ <;>
    cases hc.symm.trans hj
  exact ha

/-- The range test of every base fails. -/
theorem classify_eq_unmapped_iff (a : Byte) :
    classify p a = .unmapped ↔
      a ∉ p.addrs.singles ∧ ∀ i : BitVec 8, i.toNat < p.maxPoints → ∀ b ∈ p.addrs.bases, a ≠ b + i := by
  obtain ⟨-, hin, -, -⟩ := (AddrMap.ok_iff _ _).1 h
  constructor
  · intro hc
    rcases classify_cases p a with ⟨j, hj, -⟩ | ⟨j, hj, -⟩ | ⟨j, hj, -⟩ | ⟨q, hj, -⟩ | ⟨-, hs, hout⟩
    case inr.inr.inr.inr =>
      exact ⟨hs, fun i hi b hb ha =>
        Bool.false_ne_true ((hout b hb).symm.trans ((inRange_iff (hin b hb)).2 ⟨i, hi, ha⟩))⟩
    all_goals cases hc.symm.trans hj
  · rintro ⟨hs, hout⟩
    rcases classify_cases p a with ⟨j, -, hj, ha⟩ | ⟨j, -, hj, ha⟩ | ⟨j, -, hj, ha⟩ | ⟨q, -, ha⟩ | ⟨hc, -⟩
    · exact absurd ha (hout j hj _ (by simp [AddrMap.bases]))
    · exact absurd ha (hout j hj _ (by simp [AddrMap.bases]))
    · exact absurd ha (hout j hj _ (by simp [AddrMap.bases]))
    · exact absurd (ha ▸ q.addr_mem _) hs
    · exact hc

end

/-! ### The reference map -/

/-- The address with bits 7:5 `k` and bits 4:0 clear. -/
theorem toNat_append_zeros (k : BitVec 3) : (k ++ 0#5).toNat = 32 * k.toNat := by
  rw [BitVec.toNat_append, Nat.shiftLeft_eq, BitVec.toNat_ofNat, Nat.zero_mod, Nat.or_zero, Nat.mul_comm]

/-- Bits 7:5 and bits 4:0 of an address, as numbers. -/
theorem toNat_extract_high (a : Byte) : (a.extractLsb' 5 3).toNat = a.toNat / 32 := by
  have := a.isLt
  rw [BitVec.extractLsb'_toNat, Nat.shiftRight_eq_div_pow]
  omega

theorem toNat_extract_low (a : Byte) : ((a.extractLsb' 0 5).setWidth 8).toNat = a.toNat % 32 := by
  rw [BitVec.toNat_setWidth, BitVec.extractLsb'_toNat, Nat.shiftRight_zero]
  omega

/-- An address is its aligned base and its index in the 32 addresses from there. -/
theorem eq_base_add_index {a : Byte} {k : BitVec 3} (h : a.extractLsb' 5 3 = k) :
    a = k ++ 0#5 + (a.extractLsb' 0 5).setWidth 8 := by
  apply BitVec.eq_of_toNat_eq
  rw [BitVec.toNat_add, ← h, toNat_append_zeros, toNat_extract_high, toNat_extract_low]
  have := a.isLt
  omega

/-- An index below 32 leaves the base's bits 7:5. -/
theorem extract_base_add {i : Byte} (hi : i.toNat < 32) (k : BitVec 3) :
    (k ++ 0#5 + i).extractLsb' 5 3 = k := by
  apply BitVec.eq_of_toNat_eq
  rw [toNat_extract_high, BitVec.toNat_add, toNat_append_zeros]
  have := k.isLt
  omega

/-- The singleton addresses of the reference map are 0 to 0x0A, in the order of 30_encoding.md R130. -/
theorem Singleton.addr_reference {a : Byte} (h : a.toNat ≤ 0x0A) :
    a = (Singleton.all.getD a.toNat .itfVersion).addr AddrMap.reference := by
  have low : ∀ n < 11, BitVec.ofNat 8 n = (Singleton.all.getD n .itfVersion).addr AddrMap.reference := by decide
  simpa using low a.toNat (by omega)

/-- The decoder of the reference map (30_encoding.md R131). -/
theorem classify_reference (a : Byte) : classify Protocol.reference a =
    if a.extractLsb' 5 3 = 0b001#3 then .pointDesc ((a.extractLsb' 0 5).setWidth 8)
    else if a.extractLsb' 5 3 = 0b010#3 then .readPoint ((a.extractLsb' 0 5).setWidth 8)
    else if a.extractLsb' 5 3 = 0b011#3 then .writePoint ((a.extractLsb' 0 5).setWidth 8)
    else if a.toNat ≤ 0x0A then .singleton (Singleton.all.getD a.toNat .itfVersion)
    else .unmapped := by
  have ok : Protocol.reference.addrs.ok Protocol.reference.maxPoints = true := by decide +kernel
  have index : ((a.extractLsb' 0 5).setWidth 8).toNat < 32 := by rw [toNat_extract_low]; omega
  split
  case isTrue hd => exact (classify_eq_pointDesc_iff ok a _).2 ⟨index, eq_base_add_index hd⟩
  split
  case isTrue hr => exact (classify_eq_readPoint_iff ok a _).2 ⟨index, eq_base_add_index hr⟩
  split
  case isTrue hw => exact (classify_eq_writePoint_iff ok a _).2 ⟨index, eq_base_add_index hw⟩
  split
  case isTrue hs => exact (classify_eq_singleton_iff ok a _).2 (Singleton.addr_reference hs)
  rename_i hd hr hw hs
  refine (classify_eq_unmapped_iff ok a).2 ⟨fun ha => ?_, fun i hi b hb ha => ?_⟩
  · have le : ∀ b ∈ AddrMap.reference.singles, b.toNat ≤ 0x0A := by decide +kernel
    exact hs (le a ha)
  · subst ha
    simp only [AddrMap.bases, List.mem_cons, List.not_mem_nil, or_false] at hb
    rcases hb with rfl | rfl | rfl
    · exact hd (extract_base_add hi 0b001#3)
    · exact hr (extract_base_add hi 0b010#3)
    · exact hw (extract_base_add hi 0b011#3)

/-- Settles O4: bits 7:5 select the reference map's aligned ranges, and under any map without overlap the class of an
address and the address of a class determine each other. -/
theorem addressDecoderIsTheRangeTest : Obligations.AddressDecoderIsTheRangeTest :=
  ⟨classify_reference, fun _ a h =>
    ⟨classify_eq_pointDesc_iff h a, classify_eq_readPoint_iff h a, classify_eq_writePoint_iff h a,
      classify_eq_singleton_iff h a, classify_eq_unmapped_iff h a⟩⟩

end Sys2Proof
end

section
/-!
What the spec's bytes stand for: the marshalling of signed values (30_encoding.md R165), and the frames and state codes
that 95_test_vectors.md sections 3.3 and 3.4 and 30_encoding.md R170 write out.
-/

namespace Sys2Proof

/-! ### Signed values -/

/-- The pattern of a number is its two's complement. -/
theorem Value.raw_ofNum (p : Protocol) (dt : Datatype) (v : Int) :
    (Value.ofNum p dt v).raw = (BitVec.ofInt (8 * dt.size p) v).toNat := by
  simp [Value.ofNum, BitVec.toNat_ofInt]

/-- The pattern of a number has the width of its datatype. -/
theorem Value.fits_ofNum (p : Protocol) (dt : Datatype) (v : Int) : (Value.ofNum p dt v).fits p = true := by
  rw [Value.fits, decide_eq_true_eq, raw_ofNum]
  exact BitVec.isLt _

/-- A value of a signed type stands for its pattern read as two's complement. -/
theorem Value.num_signed {p : Protocol} {x : Value} (hs : x.dt.isSigned = true)
    {w : BitVec (8 * x.dt.size p)} (hw : x.raw = w.toNat) : x.num p = some w.toInt := by
  have hnum : x.num p = if x.raw.testBit (8 * x.dt.size p - 1) then
      some ((x.raw : Int) - 2 ^ (8 * x.dt.size p)) else some (x.raw : Int) := by
    unfold Value.num
    cases hdt : x.dt <;> simp_all [Datatype.isSigned]
  have hmsb : x.raw.testBit (8 * x.dt.size p - 1) = w.msb := by rw [hw, BitVec.msb_eq_getLsbD_last]; rfl
  rw [hnum, hmsb, hw, BitVec.toInt_eq_msb_cond]
  split <;> simp

/-- Settles O14: the pattern is the two's complement of the number, which the marshalling of values keeps. -/
theorem signedValuesMarshal : Obligations.SignedValuesMarshal := by
  refine ⟨fun p dt v hs hsize hlo hhi => ?_, rfl⟩
  have hfits := Value.fits_ofNum p dt v
  refine ⟨?_, Value.length_bytes p _, Value.ofBytes_bytes hfits, ?_⟩
  · have hlt : (Value.ofNum p dt v).raw < 2 ^ (8 * dt.size p) := of_decide_eq_true hfits
    calc (fromLe ((Value.ofNum p dt v).bytes p) : Int)
        = (Value.ofNum p dt v).raw := congrArg _ ((fromLe_leBytes _ _).trans (Nat.mod_eq_of_lt hlt))
      _ = v % 2 ^ (8 * dt.size p) := Int.toNat_of_nonneg (Int.emod_nonneg v (by positivity))
  · have hpos : 0 < 8 * dt.size p := by omega
    rw [Value.num_signed hs (Value.raw_ofNum p dt v)]
    exact congrArg some (BitVec.toInt_ofInt_eq_self hpos hlo hhi)

/-! ### The vectors -/

/-- Settles O15: the decoder evaluated on each vector. -/
theorem specVectorsDecode : Obligations.SpecVectorsDecode := by
  refine ⟨?_, ?_, ?_, ?_, ?_, ?_, ?_, ?_, ?_⟩
  all_goals decide +kernel

end Sys2Proof
end

section
/-!
Where the machine stops by name: state code 15 (30_encoding.md R170), and the operands that no decoder produces
(notes/assumptions/15.md).
-/

namespace Sys2Proof.Machine

/-- Settles O49: the state register is looked at before the event. -/
theorem stateCode15Faults : Obligations.StateCode15Faults := by
  intro s hc hs
  rw [step, stepState, if_pos hc, if_pos hs]

/-! ### Operands that no decoder produces -/

theorem serveUnmapped_mapped {a : Byte} {s : State} (h : classify s.cfg.toProtocol a ≠ .unmapped) :
    serveUnmapped a s = .refused .illFormedAddress := if_neg h

/-- Stage 1 for an index that no point range has, whatever the handler after it (42_dispatcher.md R240). -/
theorem servePoint_outside {base : Byte} {i : BitVec 8} {s : State}
    {serve : DbEntry → Host.Outcome State Fault Refusal} (hc : s.cfg.ok = true)
    (hi : s.cfg.maxPoints ≤ i.toNat) : servePoint base i s serve = .refused .illFormedAddress := by
  obtain ⟨-, -, -, -, -, -, -, -, hnp, -⟩ := (Config.ok_iff _).1 hc
  rcases servePoint_cases base i s serve with ⟨-, ⟨hlt, -⟩ | ⟨-, h⟩⟩ | ⟨hlt, -⟩
  · omega
  · exact h
  · omega

/-- A write that the point's rights allow, of no value or of one that is not the point's. -/
theorem exec_writePointData_illFormed {s : State} {i : BitVec 8} {e : DbEntry} {x : Option Value}
    (hi : i.toNat < s.cfg.np) (he : s.responder.ptDb[i.toNat]? = some e)
    (hw : includesWrite s.cfg.access e.desc.accessRights = true)
    (hx : ∀ v, x = some v → e.desc.takes s.cfg.toProtocol v = false) :
    exec (.writePointData i x) s = .refused .illFormedWrite := by
  simp only [exec, execWritePointData, servePoint_entry hi he, if_pos hw]
  cases x with
  | none => rfl
  | some v => simp [hx v rfl]

/-- Settles O60: stage 1 refuses the addresses, and the write stage the values. -/
theorem illFormedRequestsAreRefused : Obligations.IllFormedRequestsAreRefused := by
  intro s hc
  refine ⟨serveUnmapped_mapped, fun lo h => ?_, fun lo h => ?_, fun a => serveUnmapped_mapped, fun i hi => ?_,
    fun i e x hi he hw hx => ?_⟩
  · exact serveUnmapped_mapped (UnmappedRow.addr0C_eq lo ▸ h)
  · exact serveUnmapped_mapped (UnmappedRow.addr10_eq lo ▸ h)
  · exact ⟨servePoint_outside hc hi, servePoint_outside hc hi, fun _ => servePoint_outside hc hi⟩
  · refine exec_writePointData_illFormed hi he (bne_iff_ne.2 hw) fun v hv => Bool.eq_false_iff.2 fun ht => ?_
    obtain ⟨hdt, hfits⟩ := PointDesc.takes_iff.1 ht
    exact Bool.false_ne_true ((hx v hv hdt).symm.trans hfits)

end Sys2Proof.Machine
end

section
/-!
The frames the units transmit (30_encoding.md R120 to R123): what a step can put on the link, and why the receiver's
checks pass on it whole.
-/

namespace Sys2Proof

/-! ### Frames and their parts -/

/-- A frame made of a body, whose size byte is its length, and of that body's CRC passes the checks whole. -/
theorem checkFrame_sealed {p : CrcParams} {hdr : Nat} {body : Frame} (hdr_le : hdr ≤ body.length)
    (hne : 2 ≤ body.length) (hsize : (body.getD 0 0).toNat = body.length) :
    checkFrame p hdr (body ++ crcBytes p body) =
      .ok ((body ++ crcBytes p body).take ((body ++ crcBytes p body).length - 2)) := by
  have hbody : (body ++ crcBytes p body).take ((body ++ crcBytes p body).length - 2) = body := by simp
  simpa [hbody] using checkFrame_packed p hdr body [] hne hdr_le hsize

/-- The payload of a response fits its size byte beside the header of 3 bytes (30_encoding.md R120, R122). -/
def RspFields.Fit (p : Protocol) (f : RspFields) : Prop := (f.bytes p).length ≤ 252

/-- A packed response has between 5 and 257 bytes and passes the checks whole (41_codec.md R207, R220). -/
theorem packResponse_passes {p : Protocol} {f : RspFields} (hf : f.Fit p) (a st : Byte) :
    5 ≤ (packResponse p a st f).length ∧ (packResponse p a st f).length ≤ 257 ∧
      checkFrame p.crc 3 (packResponse p a st f) =
        .ok ((packResponse p a st f).take ((packResponse p a st f).length - 2)) := by
  unfold packResponse
  generalize hpl : (if st = p.status.ok then f.bytes p else []) = pl
  have hlen : pl.length ≤ 252 := by
    subst hpl
    split
    · exact hf
    · exact Nat.zero_le _
  refine ⟨by simp, by simp; omega, checkFrame_sealed (by simp) (by simp) ?_⟩
  simp
  omega

/-! ### The sizes of the response payloads (30_encoding.md R157) -/

section
variable {p : Protocol} (hp : p.ok = true)
include hp

theorem RspFields.fit_board {b : BoardId} (hb : b.fits p.fieldSizes = true) : (RspFields.board b).Fit p := by
  obtain ⟨hboard, -⟩ := (Protocol.ok_iff p).1 hp
  obtain ⟨hm, hmd⟩ : b.manufacturer.length = p.fieldSizes.manufName ∧
      b.model.length = p.fieldSizes.modelName := by simpa [BoardId.fits] using hb
  rwa [Fit, RspFields.bytes, BoardId.length_bytes, hm, hmd]

theorem RspFields.fit_desc {d : PointDesc} (hd : d.fits p.fieldSizes = true) : (RspFields.desc d).Fit p := by
  obtain ⟨-, hdesc, -⟩ := (Protocol.ok_iff p).1 hp
  have hn : d.name.length = p.fieldSizes.pointName := by simpa [PointDesc.fits] using hd
  rwa [Fit, RspFields.bytes, PointDesc.length_bytes, hn]

theorem RspFields.fit_value (x : Value) : (RspFields.value x).Fit p := by
  obtain ⟨-, -, -, -, hsize, -⟩ := (Protocol.ok_iff p).1 hp
  rw [Fit, RspFields.bytes, Value.length_bytes]
  exact (hsize x.dt x.dt.mem_all).2

theorem RspFields.fit_svr {a : List Byte} (ha : a.length = p.fieldSizes.svrAddr) :
    (RspFields.svrMain a).Fit p ∧ (RspFields.svrSec a).Fit p := by
  obtain ⟨-, -, hsvr, -⟩ := (Protocol.ok_iff p).1 hp
  rw [← ha] at hsvr
  exact ⟨hsvr, hsvr⟩

end

/-- A response of one byte, or of none. -/
theorem RspFields.fit_short {p : Protocol} {f : RspFields} (h : (f.bytes p).length ≤ 1) : f.Fit p :=
  h.trans (by decide)

end Sys2Proof

namespace Sys2Proof.Machine

/-- What the dispatcher answers with: fields that fit a response, or an error, which is a status only. -/
def ReplyFits (p : Protocol) : Except DispatchError RspFields → Prop
  | .ok f => f.Fit p
  | .error _ => True

theorem replyFrame_passes {p : Protocol} {r : Except DispatchError RspFields} (hr : ReplyFits p r) (a : Byte) :
    5 ≤ (replyFrame p a r).length ∧ (replyFrame p a r).length ≤ 257 ∧
      checkFrame p.crc 3 (replyFrame p a r) =
        .ok ((replyFrame p a r).take ((replyFrame p a r).length - 2)) := by
  cases r with
  | ok f => exact packResponse_passes hr a _
  | error e => exact packResponse_passes (RspFields.fit_short (Nat.zero_le _)) a _

/-! ### What a step can transmit -/

/-- The poller's side transmits nothing, or one request without payload; the responder's nothing, or one answer that
fits a frame. -/
structure Transmits (s t : State) : Prop where
  poller : t.pTx = s.pTx ∨ ∃ a, t.pTx = s.pTx ++ [packRequest s.cfg.crc a []]
  responder : t.rTx = s.rTx ∨
    ∃ a r, ReplyFits s.cfg.toProtocol r ∧ t.rTx = s.rTx ++ [replyFrame s.cfg.toProtocol a r]

/-- An event that writes neither link. -/
theorem Transmits.nothing {s t : State} (hp : t.pTx = s.pTx) (hr : t.rTx = s.rTx) : Transmits s t :=
  ⟨.inl hp, .inl hr⟩

/-- A poller state transmits on the poller's link only (43_poller_fsm.md R274). -/
theorem Polled.transmits {s t : State} (h : Polled s t) : Transmits s t := ⟨h.pTx, .inl h.rTx⟩

theorem Transmits.respond {s : State} {a : Byte} {r : Except DispatchError RspFields}
    (hr : ReplyFits s.cfg.toProtocol r) : Transmits s (s.respond a r) := ⟨.inl rfl, .inr ⟨a, r, hr, rfl⟩⟩

/-- An accepted write stores the value and answers OK without fields (42_dispatcher.md R250). -/
theorem Transmits.acceptWrite (s : State) (k : BitVec 8) (x : Value) : Transmits s (s.acceptWrite k x) :=
  ⟨.inl rfl, .inr ⟨_, .ok .none, RspFields.fit_short (Nat.zero_le 1), s.acceptWrite_rTx k x⟩⟩

/-- Stage 1 answers a status, or leaves the point's entry to the handler (42_dispatcher.md R240). -/
theorem Transmits.servePoint {base : Byte} {k : BitVec 8} {s t : State}
    {serve : DbEntry → Host.Outcome State Fault Refusal} (ht : servePoint base k s serve = .next t)
    (hserve : ∀ e ∈ s.responder.ptDb, serve e = .next t → Transmits s t) : Transmits s t := by
  rcases servePoint_next ht with ⟨-, -, rfl⟩ | ⟨e, -, he, ht⟩
  · exact .respond trivial
  · exact hserve e (List.mem_of_getElem? he) ht

/-- A request that completes transmits one answer, whose payload fits a frame: the registers it answers with have
their configured sizes (10_state.md R60 to R62). -/
theorem exec_transmits {i : Instr} {a : Byte} {s t : State} (hc : s.cfg.ok = true) (hdb : s.databaseOk)
    (ha : requestAddr s.cfg.addrs i = some a) (ht : exec i s = .next t) : Transmits s t := by
  obtain ⟨-, -, -, -, -, -, hp, -, -, hbrd, -⟩ := (Config.ok_iff _).1 hc
  obtain ⟨-, hent, hmain, hsec⟩ := hdb
  cases i with
  | itfVersion | brdStatus | batStatus | batCharge =>
    cases ht; exact .respond (RspFields.fit_short le_rfl)
  | brdId => cases ht; exact .respond (RspFields.fit_board hp hbrd)
  | svrMainAddr => cases ht; exact .respond (RspFields.fit_svr hp hmain).1
  | svrSecAddr => cases ht; exact .respond (RspFields.fit_svr hp hsec).2
  | brdCmd _ | dspWrite _ | radioStatus _ | radioStrength _ => cases ht; exact .respond trivial
  | unmappedLo0B | unmappedLo0C _ | unmappedLo10 _ | unmappedHi _ =>
    cases (serveUnmapped_next ht).2; exact .respond trivial
  | pointDesc k =>
    refine .servePoint ht fun e he ht => ?_
    have hfits : e.desc.fits s.cfg.fieldSizes = true := (Bool.and_eq_true _ _ ▸ hent e he).1
    cases ht
    exact .respond (RspFields.fit_desc hp hfits)
  | readPointData k =>
    refine .servePoint ht fun e _ ht => ?_
    split at ht <;> cases ht
    · exact .respond (RspFields.fit_value hp e.value)
    · exact .respond trivial
  | writePointData k x =>
    refine .servePoint ht fun e _ ht => ?_
    split at ht
    · split at ht
      · split at ht <;> cases ht
        exact .acceptWrite s k _
      · cases ht
    · cases ht
      exact .respond trivial
  | fsmInit | fsmSendItfVer | fsmWaitItfVerAns | fsmProcItfVer | fsmSendBrdId | fsmWaitBrdIdAns | fsmProcBrdId
  | fsmSendPtDesc | fsmWaitPtDescAns | fsmProcPtDesc | fsmBuildSch | fsmRunSch | fsmSendPtVal | fsmWaitPtValAns
  | fsmProcPtVal => cases ha

/-- The end of a frame: what is transmitted is the answer to the request in it (42_dispatcher.md R231). -/
theorem Transmits.rxIdle {s t : State} (hc : s.cfg.ok = true) (hdb : s.databaseOk)
    (ht : onResponderRxIdle s = .next t) : Transmits s t := by
  rcases onResponderRxIdle_next ht with ⟨-, rfl⟩ | ⟨buf, -, ⟨e, -, rfl⟩ | ⟨i, hi, ht⟩⟩
  · exact .nothing rfl rfl
  · exact .nothing rfl rfl
  · obtain ⟨a, ha⟩ := requestAddr_decodeRequest hi
    have h := exec_transmits (s := s.consumed) hc hdb ha ht
    exact ⟨h.poller, h.responder⟩

theorem onEvent_transmits {e : Event} {s t : State} (hc : s.cfg.ok = true) (hdb : s.databaseOk)
    (ht : onEvent e s = .next t) : Transmits s t := by
  cases e with
  | reset => cases ht; exact .nothing rfl rfl
  | tick => exact (onTick_polled ht).transmits
  | pollerRxByte b =>
    rcases onPollerRxByte_cases b s with ⟨-, h⟩ | ⟨-, h⟩ <;> cases h.symm.trans ht <;> exact .nothing rfl rfl
  | pollerRxIdle =>
    simp only [onEvent, onPollerRxIdle] at ht
    split at ht <;> cases ht <;> exact .nothing rfl rfl
  | responderRxByte b =>
    rcases onResponderRxByte_cases b s with ⟨-, h⟩ | ⟨-, h⟩ <;> cases h.symm.trans ht <;> exact .nothing rfl rfl
  | responderRxIdle => exact .rxIdle hc hdb ht
  | appSet f =>
    obtain ⟨r, rfl, -⟩ := onAppSet_next ht
    exact .nothing rfl rfl

theorem step_transmits {s t : State} (hdb : s.databaseOk) (ht : step s = .next t) : Transmits s t := by
  obtain ⟨hc, -, ⟨-, rfl⟩ | ⟨e, es, -, ht⟩⟩ := step_next ht
  · exact .nothing rfl rfl
  · have h := onEvent_transmits (s := s.withEvents es) hc hdb ht
    exact ⟨h.poller, h.responder⟩

/-- Settles O52: a step transmits a packed request without payload or a packed answer that fits a frame, and both
pass the checks whole. -/
theorem transmittedFramesPassTheChecks : Obligations.TransmittedFramesPassTheChecks := by
  intro s t hdb ht
  obtain ⟨hpoller, hresponder⟩ := step_transmits hdb ht
  refine ⟨fun f hf => ?_, fun f hf => ?_⟩
  · rcases hpoller with h | ⟨a, h⟩
    · simp [h] at hf
    · cases List.append_cancel_left (hf.symm.trans h)
      exact ⟨rfl, checkFrame_packRequest s.cfg.crc a [] (Nat.zero_le _)⟩
  · rcases hresponder with h | ⟨a, r, hr, h⟩
    · simp [h] at hf
    · cases List.append_cancel_left (hf.symm.trans h)
      exact replyFrame_passes hr a

end Sys2Proof.Machine
end

section
/-!
The CRC unit (40_crc.md): a repetition of the update is linear in the register, so that a table of byte steps replaces
it (R182), and one-to-one where the polynomial has bit 0, so that no change of a single byte is lost (R187).
-/

namespace Sys2Proof

/-! ### The eight repetitions (40_crc.md R181) -/

/-- The repetition without its case split. -/
theorem crcBit_eq (poly c : BitVec 16) : crcBit poly c = c <<< 1 ^^^ (if c.getLsbD 15 then poly else 0) := by
  unfold crcBit
  split <;> simp

theorem crcBit_of_bit15_clear {poly c : BitVec 16} (h : c.getLsbD 15 = false) : crcBit poly c = c <<< 1 :=
  if_neg (Bool.eq_false_iff.1 h)

theorem crcBit_xor (poly c e : BitVec 16) : crcBit poly (c ^^^ e) = crcBit poly c ^^^ crcBit poly e := by
  have hmask : (if (c ^^^ e).getLsbD 15 then poly else 0) =
      (if c.getLsbD 15 then poly else 0) ^^^ (if e.getLsbD 15 then poly else 0) := by
    rw [BitVec.getLsbD_xor]
    cases c.getLsbD 15 <;> cases e.getLsbD 15 <;> simp
  rw [crcBit_eq, crcBit_eq, crcBit_eq, BitVec.shiftLeft_xor_distrib, hmask]
  ac_rfl

theorem crcBits_xor (poly : BitVec 16) (n : Nat) (c e : BitVec 16) :
    crcBits poly n (c ^^^ e) = crcBits poly n c ^^^ crcBits poly n e := by
  induction n generalizing c e with
  | zero => rfl
  | succ n ih => rw [crcBits, crcBit_xor, ih]; rfl

/-- As long as the bits shifted out are clear, the polynomial does not enter. -/
theorem crcBits_of_high_clear (poly : BitVec 16) {n : Nat} {c : BitVec 16}
    (h : ∀ i < n, c.getLsbD (15 - i) = false) : crcBits poly n c = c <<< n := by
  induction n generalizing c with
  | zero => simp [crcBits]
  | succ n ih =>
    have hshift : ∀ i < n, (c <<< 1).getLsbD (15 - i) = false := fun i hi => by
      rw [BitVec.getLsbD_shiftLeft, Nat.sub_sub, h (i + 1) (by omega), Bool.and_false]
    rw [crcBits, crcBit_of_bit15_clear (h 0 n.succ_pos), ih hshift, ← BitVec.shiftLeft_add, Nat.add_comm]

theorem crcBits_low_byte (poly : BitVec 16) (x : Byte) : crcBits poly 8 (x.setWidth 16) = x.setWidth 16 <<< 8 :=
  crcBits_of_high_clear poly fun i hi => by
    rw [BitVec.getLsbD_setWidth, BitVec.getLsbD_of_ge x (15 - i) (by omega), Bool.and_false]

/-! ### The table-driven form (40_crc.md R182) -/

/-- The register is its low byte and, above it, its high byte. -/
theorem eq_low_xor_high (c : BitVec 16) :
    c = (c.setWidth 8).setWidth 16 ^^^ (c.extractLsb' 8 8).setWidth 16 <<< 8 := by
  refine BitVec.eq_of_getLsbD_eq fun i hi => ?_
  by_cases h : i < 8
  · simp [h, hi]
  · simp [h, hi, show i - 8 < 8 by omega, show 8 + (i - 8) = i by omega]

/-- The eight repetitions move the low byte up unchanged, and the table holds what becomes of the high one. -/
theorem crcUpdate_eq_byTable (p : CrcParams) (c : BitVec 16) (b : Byte) :
    crcUpdate p c b = crcUpdateByTable p c b := by
  have hlow : (c.setWidth 8).setWidth 16 <<< 8 = c <<< 8 := by
    refine BitVec.eq_of_getLsbD_eq fun i hi => ?_
    simp [hi, show i - 8 < 8 by omega, show i - 8 < 16 by omega]
  calc crcUpdate p c b
    _ = crcBits p.poly 8 ((c.setWidth 8).setWidth 16 ^^^
          (c.extractLsb' 8 8 ^^^ crcInByte p b).setWidth 16 <<< 8) := by
      rw [crcUpdate, BitVec.setWidth_xor, BitVec.shiftLeft_xor_distrib, ← BitVec.xor_assoc, ← eq_low_xor_high]
    _ = crcUpdateByTable p c b := by rw [crcBits_xor, crcBits_low_byte, hlow, crcUpdateByTable, crcTableEntry]

/-- Settles O2: byte by byte the table gives the register of the eight repetitions. -/
theorem tableDrivenCrcConforms : Obligations.TableDrivenCrcConforms := fun p _ =>
  congrArg (crcResult p) (List.foldl_ext _ _ _ fun c b _ => (crcUpdate_eq_byTable p c b).symm)

/-! ### What keeps a difference (40_crc.md R187) -/

theorem crcBits_eq_iterate (poly : BitVec 16) (n : Nat) : crcBits poly n = (crcBit poly)^[n] := by
  funext c
  induction n generalizing c with
  | zero => rfl
  | succ n ih => exact ih _

/-- Bit 0 of the polynomial puts the bit shifted out at the top in at the bottom. -/
theorem crcBit_getLsbD_zero {poly : BitVec 16} (hpoly : poly.getLsbD 0 = true) (c : BitVec 16) :
    (crcBit poly c).getLsbD 0 = c.getLsbD 15 := by
  rw [crcBit_eq]
  cases h : c.getLsbD 15 <;> simp [hpoly]

/-- Two registers with one image agree in bit 15, so both or neither took the polynomial in. -/
theorem crcBit_injective {poly : BitVec 16} (hpoly : poly.getLsbD 0 = true) :
    Function.Injective (crcBit poly) := by
  intro c e h
  have h15 : c.getLsbD 15 = e.getLsbD 15 := by
    rw [← crcBit_getLsbD_zero hpoly, h, crcBit_getLsbD_zero hpoly]
  have hshift : c <<< 1 = e <<< 1 := by
    rwa [crcBit_eq, crcBit_eq, h15, BitVec.xor_left_inj] at h
  refine BitVec.eq_of_getLsbD_eq fun i hi => ?_
  by_cases htop : i = 15
  · rwa [htop]
  · have hi' : i + 1 < 16 := by omega
    simpa [hi, hi'] using congrArg (·.getLsbD (i + 1)) hshift

theorem reverse_injective {w : Nat} : Function.Injective (BitVec.reverse (w := w)) :=
  Function.LeftInverse.injective fun _ => BitVec.reverse_reverse_eq

theorem crcInByte_injective (p : CrcParams) : Function.Injective (crcInByte p) := by
  intro a b h
  unfold crcInByte at h
  split at h
  · exact reverse_injective h
  · exact h

theorem crcResult_injective (p : CrcParams) : Function.Injective (crcResult p) := by
  intro c e h
  unfold crcResult at h
  rw [BitVec.xor_left_inj] at h
  split at h
  · exact reverse_injective h
  · exact h

section
variable {p : CrcParams} (hpoly : p.poly.getLsbD 0 = true)
include hpoly

theorem crcBits_injective (n : Nat) : Function.Injective (crcBits p.poly n) :=
  crcBits_eq_iterate p.poly n ▸ (crcBit_injective hpoly).iterate n

theorem crcUpdate_injective (b : Byte) : Function.Injective (crcUpdate p · b) := fun _ _ h =>
  (BitVec.xor_left_inj _).1 (crcBits_injective hpoly 8 h)

theorem crcUpdate_byte_injective (c : BitVec 16) : Function.Injective (crcUpdate p c) := by
  intro a b h
  have hin := (BitVec.xor_right_inj _).1 (crcBits_injective hpoly 8 h)
  refine crcInByte_injective p (BitVec.eq_of_getLsbD_eq fun i hi => ?_)
  have hi' : i + 8 < 16 := by omega
  simpa [hi, hi'] using congrArg (·.getLsbD (i + 8)) hin

/-- What comes after two different registers keeps them different. -/
theorem foldl_crcUpdate_injective (d : List Byte) : Function.Injective (d.foldl (crcUpdate p)) := by
  induction d with
  | nil => exact fun _ _ h => h
  | cons b d ih => exact ih.comp (crcUpdate_injective hpoly b)

/-- The CRC tells two inputs apart that differ in one byte. -/
theorem crc16_injective_at (front back : List Byte) :
    Function.Injective fun b => crc16 p (front ++ b :: back) := by
  intro a b h
  simp only [crc16, List.foldl_append, List.foldl_cons] at h
  exact crcUpdate_byte_injective hpoly _ (foldl_crcUpdate_injective hpoly back (crcResult_injective p h))

/-- A byte of the input that is changed changes the CRC. -/
theorem crc16_modify_ne {d : List Byte} {k : Nat} {f : Byte → Byte} (hk : k < d.length) (hf : f d[k] ≠ d[k]) :
    crc16 p (d.modify k f) ≠ crc16 p d := by
  intro h
  have hd : d = d.take k ++ d[k] :: d.drop (k + 1) := by simp
  rw [List.modify_eq_take_cons_drop hk] at h
  exact hf (crc16_injective_at hpoly _ _ (h.trans (congrArg (crc16 p) hd)))

end

theorem xor_one_shiftLeft_ne (b : Byte) {j : Nat} (hj : j < 8) : b ^^^ (1#8 <<< j) ≠ b := by
  intro h
  simpa [hj] using congrArg (·.getLsbD j) h

/-- Settles O3: the CRC tells the byte with the bit flipped from the byte; R385 asks for bit 0 of the polynomial. -/
theorem crcDetectsEverySingleBitFlip : Obligations.CrcDetectsEverySingleBitFlip := by
  refine ⟨fun p hpoly d k j hk hj => crc16_modify_ne hpoly hk (xor_one_shiftLeft_ne _ hj), fun c hpoly => ?_⟩
  refine Bool.eq_false_iff.2 fun hok => ?_
  obtain ⟨hbit, -⟩ := (Config.ok_iff c).1 hok
  exact Bool.false_ne_true (hpoly.symm.trans hbit)

/-! ### Check values (40_crc.md R186) -/

/-- Settles O1: the model's CRC, run on the nine bytes under each parameter set. -/
theorem crcCheckValues : Obligations.CrcCheckValues := by
  refine ⟨?xmodem, ?ccittFalse, ?kermit, ?arc⟩
  all_goals decide +kernel

end Sys2Proof
end

section
/-!
The shared checks of the two unpackers (41_codec.md R210, R220): what each of them answers, that a frame which passes
them is its covered part with that part's CRC, that no byte past it is read (R211), and that a flipped bit in it is
found (R227).
-/

namespace Sys2Proof.Machine

/-! ### The parts of a received frame (30_encoding.md R120 to R123) -/

/-- What the size byte says. -/
abbrev sizeByte (buf : Frame) : Nat := (buf.getD 0 0).toNat

/-- The check that follows the covered part, low byte first. -/
abbrev receivedCrc (buf : Frame) : BitVec 16 := buf.getD (sizeByte buf + 1) 0 ++ buf.getD (sizeByte buf) 0

/-- The body of a request with an encoded payload. -/
abbrev requestBody (a : Byte) (pl : List Byte) : Frame := [BitVec.ofNat 8 (2 + pl.length), a] ++ pl

/-- The body of a response with an encoded payload. -/
abbrev responseBody (a st : Byte) (pl : List Byte) : Frame :=
  [BitVec.ofNat 8 (3 + pl.length), a] ++ pl ++ [st]

theorem take_add_two {buf : Frame} {n : Nat} (h : n + 2 ≤ buf.length) :
    buf.take (n + 2) = buf.take n ++ [buf.getD n 0, buf.getD (n + 1) 0] := by
  rw [List.getD_eq_getElem _ _ (by omega), List.getD_eq_getElem _ _ (by omega),
    ← List.take_append_getElem (by omega : n + 1 < buf.length), ← List.take_append_getElem (by omega : n < buf.length),
    List.append_assoc]
  rfl

theorem length_bytesAt {buf : Frame} {off n : Nat} (h : off + n ≤ buf.length) : (bytesAt buf off n).length = n := by
  rw [bytesAt, List.length_take, List.length_drop]
  omega

/-- The covered part of a frame is the body of a request with the bytes after its header. -/
theorem take_eq_requestBody {buf : Frame} (hdr : 2 ≤ sizeByte buf) (hlen : sizeByte buf ≤ buf.length) :
    buf.take (sizeByte buf) = requestBody (buf.getD 1 0) (bytesAt buf 2 (sizeByte buf - 2)) := by
  have hpl := length_bytesAt (buf := buf) (off := 2) (n := sizeByte buf - 2) (by omega)
  rw [requestBody, hpl, Nat.add_sub_cancel' hdr, sizeByte, BitVec.ofNat_toNat, BitVec.setWidth_eq]
  cases buf with
  | nil => exact absurd hdr (by decide)
  | cons b rest =>
    obtain ⟨n, hn⟩ : ∃ n, b.toNat = n + 2 := Nat.exists_eq_add_of_le' hdr
    cases rest with
    | nil => exact absurd (show b.toNat ≤ 1 from hlen) (by omega)
    | cons a rest => simp [bytesAt, hn]

/-- The covered part of a frame is the body of a response with the bytes between its header and its status. -/
theorem take_eq_responseBody {buf : Frame} (hdr : 3 ≤ sizeByte buf) (hlen : sizeByte buf ≤ buf.length) :
    buf.take (sizeByte buf) =
      responseBody (buf.getD 1 0) (buf.getD (sizeByte buf - 1) 0) (bytesAt buf 2 (sizeByte buf - 3)) := by
  obtain ⟨n, hn⟩ := Nat.exists_eq_add_of_le' hdr
  have hpl : (bytesAt buf 2 n).length = n := length_bytesAt (by omega)
  have hsplit : bytesAt buf 2 (n + 1) = bytesAt buf 2 n ++ [buf.getD (n + 2) 0] := by
    rw [bytesAt, bytesAt, ← List.take_append_getElem (by rw [List.length_drop]; omega), List.getElem_drop,
      List.getD_eq_getElem _ _ (by omega)]
    simp only [Nat.add_comm]
  have hlen' : (bytesAt buf 2 (n + 1)).length = n + 1 := length_bytesAt (by omega)
  rw [take_eq_requestBody (by omega) hlen, hn, Nat.add_sub_cancel, show n + 3 - 2 = n + 1 from rfl,
    show n + 3 - 1 = n + 2 from rfl, requestBody, responseBody, hlen', hpl, hsplit, List.append_assoc]
  congr 3
  omega

/-! ### What each check answers -/

section
variable {p : CrcParams} {hdr : Nat} {buf : Frame}

theorem checkFrame_of_length_lt (h : buf.length < 3) : checkFrame p hdr buf = .error (.shortFrame buf.length) :=
  if_pos h

theorem checkFrame_of_size_lt (hlen : 3 ≤ buf.length) (h : sizeByte buf < hdr) :
    checkFrame p hdr buf = .error (.malformed (sizeByte buf)) :=
  (if_neg (Nat.not_lt.2 hlen)).trans (if_pos h)

theorem checkFrame_of_truncated (hlen : 3 ≤ buf.length) (hsize : hdr ≤ sizeByte buf)
    (h : buf.length < sizeByte buf + 2) : checkFrame p hdr buf = .error (.shortFrame buf.length) :=
  (if_neg (Nat.not_lt.2 hlen)).trans ((if_neg (Nat.not_lt.2 hsize)).trans (if_pos h))

/-- The CRC is looked at when the header and the whole frame are there. -/
theorem checkFrame_whole (hlen : 3 ≤ buf.length) (hsize : hdr ≤ sizeByte buf) (h : sizeByte buf + 2 ≤ buf.length) :
    checkFrame p hdr buf = if crc16 p (buf.take (sizeByte buf)) ≠ receivedCrc buf then
      .error (.crcMismatch (receivedCrc buf)) else .ok (buf.take (sizeByte buf)) :=
  (if_neg (Nat.not_lt.2 hlen)).trans ((if_neg (Nat.not_lt.2 hsize)).trans (if_neg (Nat.not_lt.2 h)))

/-- A frame with the CRC of its covered part is that part, sealed. -/
theorem take_eq_sealFrame (hlen : sizeByte buf + 2 ≤ buf.length)
    (hcrc : crc16 p (buf.take (sizeByte buf)) = receivedCrc buf) :
    buf.take (sizeByte buf + 2) = sealFrame p (buf.take (sizeByte buf)) := by
  rw [take_add_two hlen, sealFrame, crcBytes, hcrc, receivedCrc, BitVec.extractLsb'_append_eq_left,
    BitVec.extractLsb'_append_eq_right]

/-! ### Trailing bytes (41_codec.md R211) -/

theorem checkFrame_take (hne : 2 ≤ sizeByte buf) (hlen : sizeByte buf + 2 ≤ buf.length) :
    checkFrame p hdr (buf.take (sizeByte buf + 2)) = checkFrame p hdr buf := by
  have hget : ∀ k < sizeByte buf + 2, (buf.take (sizeByte buf + 2)).getD k 0 = buf.getD k 0 := fun k hk => by
    rw [List.getD, List.getElem?_take_of_lt hk, List.getD]
  have hlen' : (buf.take (sizeByte buf + 2)).length = sizeByte buf + 2 := List.length_take_of_le hlen
  have hsize : sizeByte (buf.take (sizeByte buf + 2)) = sizeByte buf := congrArg BitVec.toNat (hget 0 (by omega))
  by_cases hdr_le : hdr ≤ sizeByte buf
  case neg =>
    rw [checkFrame_of_size_lt (by omega) (by omega), checkFrame_of_size_lt (by omega) (by omega), hsize]
  rw [checkFrame_whole (by omega) (by omega) (by omega), checkFrame_whole (by omega) hdr_le hlen, receivedCrc, hsize,
    hget _ (by omega), hget _ (by omega), List.take_take, Nat.min_eq_left (by omega)]

/-! ### A flipped bit (41_codec.md R227) -/

@[simp] theorem length_flipBit (buf : Frame) (k j : Nat) : (flipBit buf k j).length = buf.length :=
  List.length_modify _ _ _

theorem getD_flipBit_of_ne {k i : Nat} (j : Nat) (h : i ≠ k) : (flipBit buf k j).getD i 0 = buf.getD i 0 := by
  rw [List.getD, flipBit, List.getElem?_modify_ne _ _ (Ne.symm h), List.getD]

theorem flipBit_ne {k j : Nat} (hk : k < buf.length) (hj : j < 8) : flipBit buf k j ≠ buf := by
  intro h
  have hbyte : (flipBit buf k j)[k]? = buf[k]? := congrArg (·[k]?) h
  rw [flipBit, List.getElem?_modify_eq, List.getElem?_eq_getElem hk] at hbyte
  exact xor_one_shiftLeft_ne _ hj (Option.some.inj hbyte)

/-- Flipped in the covered part, the bit changes the CRC and not the check; flipped in the check, it leaves the covered
part, and so the check it had. -/
theorem crc16_flipBit_ne {k j : Nat} (hpoly : p.poly.getLsbD 0 = true) (hk1 : 1 ≤ k) (hk : k < sizeByte buf + 2)
    (hj : j < 8) (hlen : sizeByte buf + 2 ≤ buf.length)
    (hcrc : crc16 p (buf.take (sizeByte buf)) = receivedCrc buf) :
    crc16 p ((flipBit buf k j).take (sizeByte buf)) ≠ receivedCrc (flipBit buf k j) := by
  intro h
  have hsize : sizeByte (flipBit buf k j) = sizeByte buf :=
    congrArg BitVec.toNat (getD_flipBit_of_ne j (by omega))
  by_cases hcov : k < sizeByte buf
  case pos =>
    have hsame : receivedCrc (flipBit buf k j) = receivedCrc buf := by
      rw [receivedCrc, hsize, getD_flipBit_of_ne j (by omega), getD_flipBit_of_ne j (by omega)]
    rw [hsame, ← hcrc, flipBit, List.take_modify] at h
    exact crc16_modify_ne hpoly (by rw [List.length_take]; omega) (xor_one_shiftLeft_ne _ hj) h
  case neg =>
    have hbody : (flipBit buf k j).take (sizeByte buf) = buf.take (sizeByte buf) := by
      rw [flipBit, List.take_modify, List.modify_eq_self (by rw [List.length_take]; omega)]
    have hsealed := take_eq_sealFrame (by rwa [hsize, length_flipBit]) (by rwa [hsize])
    rw [hsize, hbody, ← take_eq_sealFrame hlen hcrc, flipBit, List.take_modify] at hsealed
    exact flipBit_ne (by rw [List.length_take]; omega) hj hsealed

theorem checkFrame_flipBit {body : Frame} {k j : Nat} (hpoly : p.poly.getLsbD 0 = true) (hk1 : 1 ≤ k)
    (hk : k < sizeByte buf + 2) (hj : j < 8) (h : checkFrame p hdr buf = .ok body) :
    ∃ rx, checkFrame p hdr (flipBit buf k j) = .error (.crcMismatch rx) := by
  obtain ⟨hlen, hsize, hwhole, rfl, hcrc⟩ := checkFrame_ok h
  have hsame : sizeByte (flipBit buf k j) = sizeByte buf :=
    congrArg BitVec.toNat (getD_flipBit_of_ne j (by omega))
  refine ⟨receivedCrc (flipBit buf k j), ?_⟩
  rw [checkFrame_whole (by simpa using hlen) (by rwa [hsame]) (by rwa [hsame, length_flipBit]), hsame]
  exact if_pos (crc16_flipBit_ne hpoly hk1 hk hj hwhole hcrc)

end

/-! ### The unpackers stand behind the checks -/

section
variable {p : Protocol} {v : PointView} {buf : Frame}

theorem decodeRequest_error {e : CodecError} (h : checkFrame p.crc 2 buf = .error e) :
    decodeRequest p v buf = .error e := by rw [decodeRequest, h]

theorem unpackResponse_error {e : CodecError} (h : checkFrame p.crc 3 buf = .error e) :
    unpackResponse p v buf = .error e := by rw [unpackResponse, h]

theorem checkFrame_of_decodeRequest {i : Instr} (h : decodeRequest p v buf = .ok i) :
    ∃ body, checkFrame p.crc 2 buf = .ok body := by
  cases hc : checkFrame p.crc 2 buf with
  | ok body => exact ⟨body, rfl⟩
  | error e => cases (decodeRequest_error hc).symm.trans h

theorem checkFrame_of_unpackResponse {r : Response} (h : unpackResponse p v buf = .ok r) :
    ∃ body, checkFrame p.crc 3 buf = .ok body := by
  cases hc : checkFrame p.crc 3 buf with
  | ok body => exact ⟨body, rfl⟩
  | error e => cases (unpackResponse_error hc).symm.trans h

theorem decodeRequest_take (hne : 2 ≤ sizeByte buf) (hlen : sizeByte buf + 2 ≤ buf.length) :
    decodeRequest p v (buf.take (sizeByte buf + 2)) = decodeRequest p v buf := by
  rw [decodeRequest, decodeRequest, checkFrame_take hne hlen]

theorem unpackResponse_take (hne : 2 ≤ sizeByte buf) (hlen : sizeByte buf + 2 ≤ buf.length) :
    unpackResponse p v (buf.take (sizeByte buf + 2)) = unpackResponse p v buf := by
  rw [unpackResponse, unpackResponse, checkFrame_take hne hlen]

/-- Bytes after a frame that unpacks change nothing (41_codec.md R211). -/
theorem decodeRequest_append {i : Instr} (rest : Frame) (h : decodeRequest p v buf = .ok i) :
    decodeRequest p v (buf ++ rest) = .ok i := by
  obtain ⟨body, hb⟩ := checkFrame_of_decodeRequest h
  obtain ⟨-, (hsize : 2 ≤ sizeByte buf), (hlen : sizeByte buf + 2 ≤ buf.length), -⟩ := checkFrame_ok hb
  have hsame : sizeByte (buf ++ rest) = sizeByte buf :=
    congrArg BitVec.toNat (List.getD_append _ _ _ _ (by omega))
  rw [← decodeRequest_take (by omega) (by rw [hsame, List.length_append]; omega), hsame,
    List.take_append_of_le_length hlen, decodeRequest_take hsize hlen, h]

end

/-- Settles O7: the checks before the CRC pass as they did, and the CRC does not match. -/
theorem flippedBitRaisesCrcMismatch : Obligations.FlippedBitRaisesCrcMismatch := by
  intro p v buf k j hpoly hk1 hk hj
  refine ⟨fun ⟨i, hi⟩ => ?_, fun ⟨r, hr⟩ => ?_⟩
  · obtain ⟨body, hb⟩ := checkFrame_of_decodeRequest hi
    exact (checkFrame_flipBit hpoly hk1 hk hj hb).imp fun _ => decodeRequest_error
  · obtain ⟨body, hb⟩ := checkFrame_of_unpackResponse hr
    exact (checkFrame_flipBit hpoly hk1 hk hj hb).imp fun _ => unpackResponse_error

end Sys2Proof.Machine
end

section
/-!
Requests (41_codec.md R205 to R215): what the unpacker answers for each class of address, and that it and the packer
are inverse on well-formed requests (R226).
-/

namespace Sys2Proof.Machine

/-! ### What stands behind the checks (41_codec.md R210) -/

/-- A frame whose covered part is a request body is answered by its address and payload. -/
theorem decodeRequest_of_check {p : Protocol} {v : PointView} {buf : Frame} {a : Byte} {pl : List Byte}
    (h : checkFrame p.crc 2 buf = .ok (requestBody a pl)) :
    decodeRequest p v buf = if validAddr p v.count a then validRequest p v a pl else invalidRequest p a := by
  rw [decodeRequest, h]
  rfl

theorem decodeRequest_packRequest {p : Protocol} {v : PointView} {a : Byte} {pl : List Byte} (h : pl.length ≤ 253) :
    decodeRequest p v (packRequest p.crc a pl) =
      if validAddr p v.count a then validRequest p v a pl else invalidRequest p a :=
  decodeRequest_of_check (checkFrame_packRequest p.crc a pl h)

/-- A frame with the right CRC is a packed request, and is answered by its address and payload. -/
theorem decodeRequest_of_crc {p : Protocol} {v : PointView} {buf : Frame} (hsize : 2 ≤ sizeByte buf)
    (hlen : sizeByte buf + 2 ≤ buf.length) (hcrc : crc16 p.crc (buf.take (sizeByte buf)) = receivedCrc buf) :
    ∃ pl, pl.length = sizeByte buf - 2 ∧
      buf.take (sizeByte buf + 2) = packRequest p.crc (buf.getD 1 0) pl ∧
      decodeRequest p v buf = if validAddr p v.count (buf.getD 1 0) then validRequest p v (buf.getD 1 0) pl
        else invalidRequest p (buf.getD 1 0) := by
  have hbody := take_eq_requestBody hsize (by omega)
  refine ⟨bytesAt buf 2 (sizeByte buf - 2), length_bytesAt (by omega), ?_, decodeRequest_of_check ?_⟩
  · rw [take_eq_sealFrame hlen hcrc, hbody]
    rfl
  · rw [checkFrame_whole (by omega) hsize hlen, ← hbody]
    exact if_neg (not_not.2 hcrc)

/-! ### The unmapped rows (30_encoding.md R130) -/

theorem unmappedRequest_addr0B : unmappedRequest UnmappedRow.addr0B = .unmappedLo0B := by decide

theorem unmappedRequest_addr0C (lo : BitVec 2) : unmappedRequest (UnmappedRow.addr0C lo) = .unmappedLo0C lo := by
  revert lo; decide

theorem unmappedRequest_addr10 (lo : BitVec 4) : unmappedRequest (UnmappedRow.addr10 lo) = .unmappedLo10 lo := by
  revert lo; decide

theorem unmappedRequest_hi {a : Byte} (h : UnmappedRow.ofAddr a = .hi) : unmappedRequest a = .unmappedHi a := by
  rw [unmappedRequest, h]

/-- An address is that of the request of its row. -/
theorem requestAddr_unmappedRequest (m : AddrMap) (a : Byte) : requestAddr m (unmappedRequest a) = some a := by
  have reference : ∀ b : Byte, requestAddr AddrMap.reference (unmappedRequest b) = some b := by decide +kernel
  have any : requestAddr m (unmappedRequest a) = requestAddr AddrMap.reference (unmappedRequest a) := by
    rw [unmappedRequest]
    cases UnmappedRow.ofAddr a <;> rfl
  exact any.trans (reference a)

theorem requestValue_unmappedRequest (a : Byte) : requestValue (unmappedRequest a) = none := by
  rw [unmappedRequest]
  cases UnmappedRow.ofAddr a <;> rfl

/-! ### Singletons (30_encoding.md R140 to R151) -/

/-- The datatype of a point does not enter a singleton's length. -/
theorem reqLen_singleton (p : Protocol) (r : Singleton) (dt : Datatype) :
    reqLen p (.singleton r) dt = reqLen p (.singleton r) .u8 := by
  cases r <;> rfl

/-- The request of a singleton packs to its address and payload. -/
theorem encode_singletonRequest {p : Protocol} {r : Singleton} {pl : List Byte}
    (h : pl.length = reqLen p (.singleton r) .u8) :
    encode p (singletonRequest r pl) = .frame (packRequest p.crc (r.addr p.addrs) pl) := by
  cases r with
  | dspWrite => rfl
  | brdCmd | radioStatus | radioStrength =>
    obtain ⟨b, rfl⟩ := List.length_eq_one_iff.1 h
    rfl
  | itfVersion | brdId | brdStatus | batStatus | batCharge | svrMainAddr | svrSecAddr =>
    cases List.eq_nil_of_length_eq_zero h
    rfl

/-! ### Which addresses are valid (30_encoding.md R132) -/

section
variable {p : Protocol} {v : PointView} {a : Byte}

theorem validAddr_singleton {n : Nat} {r : Singleton} (h : classify p a = .singleton r) : validAddr p n a = true := by
  rw [validAddr, h]

theorem validAddr_unmapped {n : Nat} (h : classify p a = .unmapped) : validAddr p n a = false := by
  rw [validAddr, h]

theorem validAddr_point {n : Nat} {i : BitVec 8}
    (h : classify p a = .pointDesc i ∨ classify p a = .readPoint i ∨ classify p a = .writePoint i) :
    validAddr p n a = decide (i.toNat < n) := by
  rcases h with h | h | h <;> rw [validAddr, h]

/-! ### Invalid addresses (41_codec.md R214) -/

theorem invalidRequest_spec {n : Nat} (h : validAddr p n a = false) :
    ∃ i, invalidRequest p a = .ok i ∧ requestAddr p.addrs i = some a ∧ requestValue i = none := by
  rw [invalidRequest]
  rcases classify_cases p a with ⟨i, hc, -, ha⟩ | ⟨i, hc, -, ha⟩ | ⟨i, hc, -, ha⟩ | ⟨r, hc, -⟩ | ⟨hc, -⟩
  · exact ⟨.pointDesc i, by rw [hc], congrArg some ha.symm, rfl⟩
  · exact ⟨.readPointData i, by rw [hc], congrArg some ha.symm, rfl⟩
  · exact ⟨.writePointData i none, by rw [hc], congrArg some ha.symm, rfl⟩
  · cases (validAddr_singleton hc).symm.trans h
  · exact ⟨unmappedRequest a, by rw [hc], requestAddr_unmappedRequest _ a, requestValue_unmappedRequest a⟩

/-! ### Valid addresses (41_codec.md R210, R215) -/

section
variable {dt : Datatype} {pl : List Byte} (hv : validAddr p v.count a = true)
  (hdt : ∀ k, classify p a = .writePoint k → v.dtOf k.toNat = some dt)
include hv hdt

theorem validRequest_malformed (hl : pl.length ≠ reqLen p (classify p a) dt) :
    validRequest p v a pl = .error (.malformed pl.length) := by
  rw [validRequest]
  cases hc : classify p a with
  | unmapped => cases (validAddr_unmapped hc).symm.trans hv
  | singleton r => rw [hc, reqLen_singleton] at hl; exact if_pos hl
  | pointDesc i => rw [hc] at hl; exact if_pos hl
  | readPoint i => rw [hc] at hl; exact if_pos hl
  | writePoint i => rw [hc] at hl; simp only [hdt i hc]; exact if_pos hl

/-- A payload of the length of its shape is decoded, and nothing of it is lost. -/
theorem validRequest_spec (hl : pl.length = reqLen p (classify p a) dt) :
    ∃ i, validRequest p v a pl = .ok i ∧ encode p i = .frame (packRequest p.crc a pl) := by
  rw [validRequest]
  rcases classify_cases p a with ⟨i, hc, -, ha⟩ | ⟨i, hc, -, ha⟩ | ⟨i, hc, -, ha⟩ | ⟨r, hc, ha⟩ | ⟨hc, -⟩
  · rw [hc] at hl ⊢
    cases List.eq_nil_of_length_eq_zero hl
    exact ⟨.pointDesc i, rfl, by rw [ha]; rfl⟩
  · rw [hc] at hl ⊢
    cases List.eq_nil_of_length_eq_zero hl
    exact ⟨.readPointData i, rfl, by rw [ha]; rfl⟩
  · have hsize : pl.length = dt.size p := by rwa [hc] at hl
    rw [hc]
    simp only [hdt i hc]
    exact ⟨_, if_neg (not_not.2 hsize), by rw [encode, Value.bytes_ofBytes hsize, ← ha]⟩
  · rw [hc, reqLen_singleton] at hl
    rw [hc, ha]
    exact ⟨_, if_neg (not_not.2 hl), encode_singletonRequest hl⟩
  · cases (validAddr_unmapped hc).symm.trans hv

end

end

/-- Settles O9: the checks in their order, then the answer by the class of the address. -/
theorem unpackRequestChecksInOrder : Obligations.UnpackRequestChecksInOrder := by
  intro p v buf n size rx addr
  refine ⟨fun h => ?_, fun hn h => ?_, fun hn hsize h => ?_, fun hsize hlen h => ?_, fun hsize hlen hcrc hv => ?_,
    fun hsize hlen hcrc hv dt hdt => ?_⟩
  · exact decodeRequest_error (checkFrame_of_length_lt h)
  · exact decodeRequest_error (checkFrame_of_size_lt hn h)
  · exact decodeRequest_error (checkFrame_of_truncated hn hsize h)
  · exact decodeRequest_error ((checkFrame_whole (by omega) hsize hlen).trans (if_pos h))
  · obtain ⟨pl, -, -, hanswer⟩ := decodeRequest_of_crc (v := v) hsize hlen hcrc
    rw [hanswer, if_neg (Bool.eq_false_iff.1 hv)]
    exact invalidRequest_spec hv
  · obtain ⟨pl, hpl, hpack, hanswer⟩ := decodeRequest_of_crc (v := v) hsize hlen hcrc
    rw [hanswer, if_pos hv, hpack, ← hpl]
    exact ⟨validRequest_malformed hv hdt, validRequest_spec hv hdt⟩

/-! ### Decoding a packed request (41_codec.md R226) -/

theorem lt_count_of_dtOf {v : PointView} {k : Nat} {dt : Datatype} (h : v.dtOf k = some dt) : k < v.count := by
  by_contra hk
  rw [PointView.dtOf, if_neg hk] at h
  cases h

theorem decode_unmapped {p : Protocol} {v : PointView} {a : Byte} {i : Instr} (hc : classify p a = .unmapped)
    (hi : unmappedRequest a = i) :
    decodeRequest p v (packRequest p.crc a []) = .ok i := by
  rw [decodeRequest_packRequest (Nat.zero_le _), validAddr_unmapped hc, invalidRequest, hc, ← hi]
  rfl

section
variable {p : Protocol} {v : PointView} (hp : p.ok = true)
include hp

/-- A request payload fits its size byte beside the header of 2 bytes (30_encoding.md R120). -/
theorem reqLen_le (cls : AddrClass) (dt : Datatype) : reqLen p cls dt ≤ 253 := by
  obtain ⟨-, -, -, hmsg, hsize, -⟩ := (Protocol.ok_iff p).1 hp
  have hdt := (hsize dt dt.mem_all).2
  cases cls with
  | singleton r => cases r <;> simp [reqLen, hmsg]
  | writePoint i => exact hdt.trans (by decide)
  | pointDesc | readPoint | unmapped => exact Nat.zero_le _

theorem decode_singleton (r : Singleton) {pl : List Byte} (hl : pl.length = reqLen p (.singleton r) .u8) :
    decodeRequest p v (packRequest p.crc (r.addr p.addrs) pl) = .ok (singletonRequest r pl) := by
  obtain ⟨-, -, -, -, -, -, -, haddrs⟩ := (Protocol.ok_iff p).1 hp
  have hc := classify_singletonAddr haddrs r
  rw [decodeRequest_packRequest (hl.trans_le (reqLen_le hp _ _)), if_pos (validAddr_singleton hc), validRequest, hc]
  exact if_neg (not_not.2 hl)

theorem decode_pointDesc {i : BitVec 8} (hi : i.toNat < p.maxPoints) :
    decodeRequest p v (packRequest p.crc (p.addrs.pointDescBase + i) []) = .ok (.pointDesc i) := by
  obtain ⟨-, -, -, -, -, -, -, haddrs⟩ := (Protocol.ok_iff p).1 hp
  rw [decodeRequest_packRequest (Nat.zero_le _), validRequest, invalidRequest, classify_pointDescBase_add haddrs hi]
  exact ite_self _

theorem decode_readPointData {i : BitVec 8} (hi : i.toNat < p.maxPoints) :
    decodeRequest p v (packRequest p.crc (p.addrs.readPointDataBase + i) []) = .ok (.readPointData i) := by
  obtain ⟨-, -, -, -, -, -, -, haddrs⟩ := (Protocol.ok_iff p).1 hp
  rw [decodeRequest_packRequest (Nat.zero_le _), validRequest, invalidRequest,
    classify_readPointDataBase_add haddrs hi]
  exact ite_self _

/-- A write to a point the responder has not is decoded without its payload (41_codec.md R214). -/
theorem decode_writePointData_none {i : BitVec 8} (hi : i.toNat < p.maxPoints) (hv : ¬ i.toNat < v.count) :
    decodeRequest p v (packRequest p.crc (p.addrs.writePointDataBase + i) []) = .ok (.writePointData i none) := by
  obtain ⟨-, -, -, -, -, -, -, haddrs⟩ := (Protocol.ok_iff p).1 hp
  have hc := classify_writePointDataBase_add haddrs hi
  rw [decodeRequest_packRequest (Nat.zero_le _), validAddr_point (.inr (.inr hc)), decide_eq_false hv, invalidRequest,
    hc]
  rfl

theorem decode_writePointData_some {i : BitVec 8} {x : Value} (hi : i.toNat < p.maxPoints)
    (hx : v.dtOf i.toNat = some x.dt) (hfits : x.fits p = true) :
    decodeRequest p v (packRequest p.crc (p.addrs.writePointDataBase + i) (x.bytes p)) =
      .ok (.writePointData i (some x)) := by
  obtain ⟨-, -, -, -, -, -, -, haddrs⟩ := (Protocol.ok_iff p).1 hp
  have hc := classify_writePointDataBase_add haddrs hi
  have hl : (x.bytes p).length = reqLen p (.writePoint i) x.dt := Value.length_bytes p x
  rw [decodeRequest_packRequest (hl.trans_le (reqLen_le hp _ _)), validAddr_point (.inr (.inr hc)),
    decide_eq_true (lt_count_of_dtOf hx), if_pos rfl, validRequest, hc]
  simp only [hx]
  exact (if_neg (not_not.2 hl)).trans (by rw [Value.ofBytes_bytes hfits])

/-- The unpacker gives every well-formed request back from its frame. -/
theorem decodeRequest_encode {i : Instr} {f : Frame} (hw : i.wf p v = true) (hf : encode p i = .frame f) :
    decodeRequest p v f = .ok i := by
  cases i with
  | itfVersion => cases hf; exact decode_singleton hp .itfVersion rfl
  | brdId => cases hf; exact decode_singleton hp .brdId rfl
  | brdStatus => cases hf; exact decode_singleton hp .brdStatus rfl
  | brdCmd cmd => cases hf; exact decode_singleton hp .brdCmd (pl := [cmd]) rfl
  | batStatus => cases hf; exact decode_singleton hp .batStatus rfl
  | batCharge => cases hf; exact decode_singleton hp .batCharge rfl
  | svrMainAddr => cases hf; exact decode_singleton hp .svrMainAddr rfl
  | svrSecAddr => cases hf; exact decode_singleton hp .svrSecAddr rfl
  | dspWrite msg => cases hf; exact decode_singleton hp .dspWrite (beq_iff_eq.1 hw)
  | radioStatus x => cases hf; exact decode_singleton hp .radioStatus (pl := [x]) rfl
  | radioStrength x => cases hf; exact decode_singleton hp .radioStrength (pl := [x]) rfl
  | unmappedLo0B => cases hf; exact decode_unmapped (beq_iff_eq.1 hw) unmappedRequest_addr0B
  | unmappedLo0C lo => cases hf; exact decode_unmapped (beq_iff_eq.1 hw) (unmappedRequest_addr0C lo)
  | unmappedLo10 lo => cases hf; exact decode_unmapped (beq_iff_eq.1 hw) (unmappedRequest_addr10 lo)
  | unmappedHi a =>
    cases hf
    obtain ⟨hc, hrow⟩ : classify p a = .unmapped ∧ UnmappedRow.ofAddr a = .hi := by simpa [Instr.wf] using hw
    exact decode_unmapped hc (unmappedRequest_hi hrow)
  | pointDesc k => cases hf; exact decode_pointDesc hp (of_decide_eq_true hw)
  | readPointData k => cases hf; exact decode_readPointData hp (of_decide_eq_true hw)
  | writePointData k x =>
    cases x with
    | none =>
      cases hf
      obtain ⟨hk, hcount⟩ : k.toNat < p.maxPoints ∧ ¬ k.toNat < v.count := by simpa [Instr.wf] using hw
      exact decode_writePointData_none hp hk hcount
    | some x =>
      cases hf
      obtain ⟨⟨hk, hdt⟩, hfits⟩ : (k.toNat < p.maxPoints ∧ v.dtOf k.toNat = some x.dt) ∧ x.fits p = true := by
        simpa [Instr.wf] using hw
      exact decode_writePointData_some hp hk hdt hfits
  | fsmInit | fsmSendItfVer | fsmWaitItfVerAns | fsmProcItfVer | fsmSendBrdId | fsmWaitBrdIdAns | fsmProcBrdId
  | fsmSendPtDesc | fsmWaitPtDescAns | fsmProcPtDesc | fsmBuildSch | fsmRunSch | fsmSendPtVal | fsmWaitPtValAns
  | fsmProcPtVal => cases hf

end

/-- The code of a poller state selects it (30_encoding.md R170). -/
theorem decodeState_encode {p : Protocol} {i : Instr} {c : BitVec 4} (h : encode p i = .stateCode c) :
    decodeState c = some i := by
  cases i
  case writePointData k x => cases x <;> cases h
  all_goals cases h
  all_goals rfl

/-- Settles O5: a request by its frame, a poller state by its code. -/
theorem decodeOfEncodeIsIdentity : Obligations.DecodeOfEncodeIsIdentity := by
  intro p v i hp hw
  cases h : encode p i with
  | frame f => rw [decode, decodeRequest_encode hp hw h]
  | stateCode c => rw [decode, decodeState_encode h]

/-- Settles O8: the shared checks read no byte past the frame, and behind them only the covered part is read. -/
theorem trailingBytesAreNotRead : Obligations.TrailingBytesAreNotRead :=
  ⟨fun _ _ _ hne hlen => ⟨(decodeRequest_take hne hlen).symm, (unpackResponse_take hne hlen).symm⟩,
    fun _ _ _ _ rest hp hw hf => decodeRequest_append rest (decodeRequest_encode hp hw hf)⟩

end Sys2Proof.Machine
end

section
/-!
Responses (41_codec.md R220 to R226): what the unpacker answers by status, class of address and payload, and that the
payload and the fields of a response determine each other.
-/

namespace Sys2Proof

/-! ### Fields and their bytes (30_encoding.md R150 to R157) -/

/-- Bytes are laid down again as they were assembled, in a register of their width. -/
theorem leBytes_fromLeBits {n w : Nat} {bs : List Byte} (hw : w = 8 * n) (h : bs.length = n) :
    leBytes n (fromLeBits w bs).toNat = bs := by
  subst hw h
  rw [fromLeBits, BitVec.toNat_ofNat, Nat.mod_eq_of_lt (fromLe_lt bs), leBytes_fromLe]

theorem map_getD_range {l : List Byte} {n : Nat} (h : l.length = n) : (List.range n).map (l.getD · 0) = l := by
  subst h
  exact List.ext_getElem (by simp) fun k _ hk => by simp [hk]

/-- A payload of the identity's size is that of the identity it stands for. -/
theorem BoardId.bytes_ofBytes {z : FieldSizes} {pl : List Byte} (h : pl.length = z.boardId) :
    (BoardId.ofBytes z pl).bytes = pl := by
  have hrest : (pl.drop (z.manufName + z.modelName)).length = 7 := by
    rw [List.length_drop, h, FieldSizes.boardId, Nat.add_sub_cancel_left]
  have hnames : bytesAt pl 0 z.manufName ++ bytesAt pl z.manufName z.modelName =
      pl.take (z.manufName + z.modelName) := List.take_add.symm
  have hid : leBytes 4 (BoardId.ofBytes z pl).sensorId.toNat = (pl.drop (z.manufName + z.modelName)).take 4 :=
    leBytes_fromLeBits rfl (by simp [bytesAt, hrest])
  have htail := map_getD_range (l := (pl.drop (z.manufName + z.modelName)).drop 4) (n := 3)
    (by rw [List.length_drop, hrest])
  have hbytes : [(BoardId.ofBytes z pl).hwRevision, (BoardId.ofBytes z pl).numOfPoints,
      (BoardId.ofBytes z pl).capabilities] = (pl.drop (z.manufName + z.modelName)).drop 4 := by
    rw [← htail]
    simp [BoardId.ofBytes, List.range_succ, Nat.add_assoc]
  rw [BoardId.bytes, hid, hbytes, List.append_assoc, List.take_append_drop]
  exact (congrArg (· ++ _) hnames).trans (List.take_append_drop _ _)

/-- A payload of the descriptor's size is that of the descriptor it stands for. -/
theorem PointDesc.bytes_ofBytes {z : FieldSizes} {pl : List Byte} (h : pl.length = z.pointDesc) :
    (PointDesc.ofBytes z pl).bytes = pl := by
  have htail := map_getD_range (l := pl.drop z.pointName) (n := 4)
    (by rw [List.length_drop, h, FieldSizes.pointDesc, Nat.add_sub_cancel_left])
  exact (congrArg (pl.take z.pointName ++ ·) htail).trans (List.take_append_drop _ _)

theorem BoardId.length_bytes_of_fits {z : FieldSizes} {b : BoardId} (h : b.fits z = true) :
    b.bytes.length = z.boardId := by
  obtain ⟨hm, hmd⟩ : b.manufacturer.length = z.manufName ∧
      b.model.length = z.modelName := by simpa [BoardId.fits] using h
  rw [BoardId.length_bytes, hm, hmd, FieldSizes.boardId]

theorem PointDesc.length_bytes_of_fits {z : FieldSizes} {d : PointDesc} (h : d.fits z = true) :
    d.bytes.length = z.pointDesc := by
  have hn : d.name.length = z.pointName := by simpa [PointDesc.fits] using h
  rw [PointDesc.length_bytes, hn, FieldSizes.pointDesc]

theorem PointDesc.dtype_ofBytes (z : FieldSizes) (pl : List Byte) :
    (PointDesc.ofBytes z pl).dtype = pl.getD z.pointName 0 := by
  simp [PointDesc.ofBytes]

section
variable {p : Protocol} {cls : AddrClass} {dt : Datatype} {pl : List Byte}

/-- Nothing of a payload of the length of its shape is lost in its fields. -/
theorem bytes_decodeRspPayload (h : pl.length = rspLen p cls dt) : (decodeRspPayload p cls dt pl).bytes p = pl := by
  cases cls with
  | singleton r =>
    cases r with
    | brdId => exact BoardId.bytes_ofBytes h
    | svrMainAddr | svrSecAddr => exact List.take_of_length_le h.le
    | itfVersion | brdStatus | batStatus | batCharge =>
      obtain ⟨b, rfl⟩ := List.length_eq_one_iff.1 h
      rfl
    | brdCmd | dspWrite | radioStatus | radioStrength => exact (List.eq_nil_of_length_eq_zero h).symm
  | pointDesc i => exact PointDesc.bytes_ofBytes h
  | readPoint i => exact Value.bytes_ofBytes h
  | writePoint i => exact (List.eq_nil_of_length_eq_zero h).symm
  | unmapped => exact (List.eq_nil_of_length_eq_zero h).symm

/-- Only a descriptor's address has a descriptor. -/
theorem decodeRspPayload_desc {d : PointDesc} (h : decodeRspPayload p cls dt pl = .desc d) :
    (∃ i, cls = .pointDesc i) ∧ d = PointDesc.ofBytes p.fieldSizes pl := by
  unfold decodeRspPayload at h
  split at h <;> cases h
  exact ⟨⟨_, rfl⟩, rfl⟩

/-! ### The payload of an OK response (41_codec.md R220, R223) -/

theorem decodeOkPayload_length_ne {a : Byte} (h : pl.length ≠ rspLen p cls dt) :
    decodeOkPayload p cls dt a pl = .error (.malformed pl.length) := if_pos h

theorem decodeOkPayload_illegalCode {a : Byte} {i : BitVec 8} (hc : cls = .pointDesc i)
    (h : pl.length = rspLen p cls dt)
    (hcode : Datatype.ofCode p (PointDesc.ofBytes p.fieldSizes pl).dtype = none) :
    decodeOkPayload p cls dt a pl = .error (.malformed (PointDesc.ofBytes p.fieldSizes pl).dtype.toNat) := by
  subst hc
  exact (if_neg (not_not.2 h)).trans (if_pos hcode)

theorem decodeOkPayload_legal {a : Byte} (h : pl.length = rspLen p cls dt)
    (hcode : ∀ d, decodeRspPayload p cls dt pl = .desc d → Datatype.ofCode p d.dtype ≠ none) :
    decodeOkPayload p cls dt a pl = .ok ⟨a, p.status.ok, decodeRspPayload p cls dt pl⟩ := by
  rw [decodeOkPayload, if_neg (not_not.2 h)]
  split
  case h_1 d hd => rw [if_neg (hcode d hd), hd]
  case h_2 => rfl

end

/-- The datatype of a point enters only for the two classes that carry values. -/
theorem decodeOkPayload_singleton (p : Protocol) (r : Singleton) (dt : Datatype) (a : Byte) (pl : List Byte) :
    decodeOkPayload p (.singleton r) dt a pl = decodeOkPayload p (.singleton r) .u8 a pl := by
  cases r <;> rfl

end Sys2Proof

namespace Sys2Proof.Machine

/-! ### What stands behind the checks (41_codec.md R220) -/

theorem packResponse_ok (p : Protocol) (a : Byte) (f : RspFields) :
    packResponse p a p.status.ok f = sealFrame p.crc (responseBody a p.status.ok (f.bytes p)) := by
  rw [packResponse, if_pos rfl]
  rfl

theorem packResponse_nonOk {p : Protocol} {st : Byte} (a : Byte) (f : RspFields) (h : st ≠ p.status.ok) :
    packResponse p a st f = sealFrame p.crc (responseBody a st []) := by
  rw [packResponse, if_neg h]
  rfl

/-- A sealed response passes the checks (41_codec.md R207). -/
theorem checkFrame_responseBody (p : CrcParams) (a st : Byte) {pl : List Byte} (h : pl.length ≤ 252) :
    checkFrame p 3 (sealFrame p (responseBody a st pl)) = .ok (responseBody a st pl) := by
  simpa [sealFrame] using checkFrame_packed p 3 (responseBody a st pl) [] (by simp) (by simp) (by simp; omega)

/-- A frame with the right CRC is a sealed response. -/
theorem checkFrame_of_crc {p : CrcParams} {buf : Frame} (hsize : 3 ≤ sizeByte buf)
    (hlen : sizeByte buf + 2 ≤ buf.length) (hcrc : crc16 p (buf.take (sizeByte buf)) = receivedCrc buf) :
    ∃ pl, pl.length = sizeByte buf - 3 ∧ (∀ k < pl.length, pl.getD k 0 = buf.getD (2 + k) 0) ∧
      buf.take (sizeByte buf + 2) =
        sealFrame p (responseBody (buf.getD 1 0) (buf.getD (sizeByte buf - 1) 0) pl) ∧
      checkFrame p 3 buf = .ok (responseBody (buf.getD 1 0) (buf.getD (sizeByte buf - 1) 0) pl) := by
  have hbody := take_eq_responseBody hsize (by omega)
  have hpl : (bytesAt buf 2 (sizeByte buf - 3)).length = sizeByte buf - 3 := length_bytesAt (by omega)
  refine ⟨bytesAt buf 2 (sizeByte buf - 3), hpl, fun k hk => ?_, ?_, ?_⟩
  · rw [hpl] at hk
    rw [bytesAt, List.getD, List.getElem?_take_of_lt hk, List.getElem?_drop, List.getD]
  · rw [take_eq_sealFrame hlen hcrc, hbody]
  · rw [checkFrame_whole (by omega) hsize hlen, ← hbody]
    exact if_neg (not_not.2 hcrc)

section
variable {p : Protocol} {v : PointView} {buf : Frame} {a : Byte} {pl : List Byte}

theorem unpackResponse_nonOk {st : Byte} (h : checkFrame p.crc 3 buf = .ok (responseBody a st pl))
    (hst : st ≠ p.status.ok) : unpackResponse p v buf =
      if pl.length ≠ 0 then .error (.malformed pl.length) else .ok ⟨a, st, .none⟩ := by
  rw [unpackResponse, h]
  simp [hst]

section
variable (h : checkFrame p.crc 3 buf = .ok (responseBody a p.status.ok pl))
include h

theorem unpackResponse_unmapped (hc : classify p a = .unmapped) :
    unpackResponse p v buf = .error (.malformed a.toNat) := by
  rw [unpackResponse, h]
  simp [hc]

theorem unpackResponse_unknownPoint {i : BitVec 8} (hc : classify p a = .readPoint i ∨ classify p a = .writePoint i)
    (hdt : v.dtOf i.toNat = none) : unpackResponse p v buf = .error (.malformed a.toNat) := by
  rw [unpackResponse, h]
  rcases hc with hc | hc <;> simp [hc, hdt]

/-- An OK response of a shape that is known is answered by its payload. -/
theorem unpackResponse_known {dt : Datatype} (hc : classify p a ≠ .unmapped)
    (hdt : ∀ i, classify p a = .readPoint i ∨ classify p a = .writePoint i → v.dtOf i.toNat = some dt) :
    unpackResponse p v buf = decodeOkPayload p (classify p a) dt a pl := by
  rw [unpackResponse, h]
  cases hc' : classify p a with
  | unmapped => exact absurd hc' hc
  | singleton r => simp [hc', decodeOkPayload_singleton p r dt]
  | pointDesc i => simp [hc']; rfl
  | readPoint i => simp [hc', hdt i (.inl hc')]
  | writePoint i => simp [hc', hdt i (.inr hc')]

end

end

/-- Settles O10: the checks in their order, then the answer by status, class and payload. -/
theorem unpackResponseChecksInOrder : Obligations.UnpackResponseChecksInOrder := by
  intro p v buf n size rx addr status cls typeCode
  refine ⟨fun h => ?_, fun hn h => ?_, fun hn hsize h => ?_, fun hsize hlen h => ?_, fun hsize hlen hcrc => ?_⟩
  · exact unpackResponse_error (checkFrame_of_length_lt h)
  · exact unpackResponse_error (checkFrame_of_size_lt hn h)
  · exact unpackResponse_error (checkFrame_of_truncated hn hsize h)
  · exact unpackResponse_error ((checkFrame_whole (by omega) hsize hlen).trans (if_pos h))
  obtain ⟨pl, hpl, hget, hseal, hcheck⟩ := checkFrame_of_crc hsize hlen hcrc
  have h3 : pl.length = size - 3 := hpl
  refine ⟨fun hst hpos => ?_, fun hst hsize => ?_, fun hst => ?_⟩
  · rw [unpackResponse_nonOk hcheck hst, if_pos (by omega), h3]
  · exact (unpackResponse_nonOk hcheck hst).trans (if_neg (by omega))
  change buf.getD (sizeByte buf - 1) 0 = p.status.ok at hst
  rw [hst] at hseal hcheck
  refine ⟨unpackResponse_unmapped hcheck, fun i => unpackResponse_unknownPoint hcheck, fun dt hmapped hdt => ?_⟩
  rw [unpackResponse_known hcheck hmapped hdt, ← h3]
  have hcode (i : BitVec 8) (hc : cls = .pointDesc i) (hl : pl.length = rspLen p cls dt) :
      (PointDesc.ofBytes p.fieldSizes pl).dtype = typeCode := by
    rw [PointDesc.dtype_ofBytes]
    rw [hc] at hl
    exact hget _ (by rw [hl]; exact Nat.lt_add_of_pos_right (by decide))
  refine ⟨decodeOkPayload_length_ne, fun hl ⟨i, hc⟩ hillegal => ?_, fun hl hlegal => ?_⟩
  · rw [← hcode i hc hl] at hillegal ⊢
    exact decodeOkPayload_illegalCode hc hl hillegal
  · refine ⟨_, decodeOkPayload_legal hl fun d hd => ?_, ?_⟩
    · obtain ⟨⟨i, hc⟩, rfl⟩ := decodeRspPayload_desc hd
      rw [hcode i hc hl]
      exact hlegal ⟨i, hc⟩
    · rw [packResponse_ok, bytes_decodeRspPayload hl, hseal]

/-! ### Packed responses (41_codec.md R226) -/

/-- The fields of an address are those its payload stands for. -/
theorem decodeRspPayload_bytes {p : Protocol} {v : PointView} {a : Byte} {f : RspFields} (h : fieldsFit p v a f) :
    classify p a ≠ .unmapped ∧ ∃ dt,
      (∀ i, classify p a = .readPoint i ∨ classify p a = .writePoint i → v.dtOf i.toNat = some dt) ∧
      (f.bytes p).length = rspLen p (classify p a) dt ∧ decodeRspPayload p (classify p a) dt (f.bytes p) = f ∧
      ∀ d, f = .desc d → Datatype.ofCode p d.dtype ≠ none := by
  cases hc : classify p a with
  | unmapped => rw [fieldsFit, hc] at h; exact h.elim
  | singleton r =>
    refine ⟨nofun, .u8, nofun, ?_⟩
    rw [fieldsFit, hc] at h
    cases r with
    | itfVersion | brdStatus | batStatus | batCharge =>
      obtain ⟨b, rfl⟩ := h
      exact ⟨rfl, rfl, nofun⟩
    | brdId =>
      obtain ⟨b, rfl, hb⟩ := h
      exact ⟨BoardId.length_bytes_of_fits hb, congrArg _ (BoardId.ofBytes_bytes hb), nofun⟩
    | svrMainAddr | svrSecAddr =>
      obtain ⟨addr, rfl, hl⟩ := h
      exact ⟨hl, congrArg _ (List.take_of_length_le hl.le), nofun⟩
    | brdCmd | dspWrite | radioStatus | radioStrength =>
      subst h
      exact ⟨rfl, rfl, nofun⟩
  | pointDesc i =>
    rw [fieldsFit, hc] at h
    obtain ⟨d, rfl, hd, hcode⟩ := h
    refine ⟨nofun, .u8, nofun, PointDesc.length_bytes_of_fits hd, congrArg _ (PointDesc.ofBytes_bytes hd), ?_⟩
    rintro _ ⟨⟩
    exact hcode
  | readPoint i =>
    rw [fieldsFit, hc] at h
    obtain ⟨x, rfl, hdt, hx⟩ := h
    refine ⟨nofun, x.dt, fun j hj => ?_, Value.length_bytes p x, congrArg _ (Value.ofBytes_bytes hx), nofun⟩
    obtain rfl : i = j := by simpa using hj
    exact hdt
  | writePoint i =>
    rw [fieldsFit, hc] at h
    obtain ⟨rfl, hdt⟩ := h
    obtain ⟨dt, hdt⟩ := Option.ne_none_iff_exists'.1 hdt
    refine ⟨nofun, dt, fun j hj => ?_, rfl, rfl, nofun⟩
    obtain rfl : i = j := by simpa using hj
    exact hdt

/-- A response payload fits its size byte beside the header of 3 bytes (30_encoding.md R120). -/
theorem rspLen_le {p : Protocol} (hp : p.ok = true) (cls : AddrClass) (dt : Datatype) : rspLen p cls dt ≤ 252 := by
  obtain ⟨hboard, hdesc, hsvr, -, hsize, -⟩ := (Protocol.ok_iff p).1 hp
  cases cls with
  | singleton r => cases r <;> simp [rspLen, hboard, hsvr]
  | pointDesc i => exact hdesc
  | readPoint i => exact (hsize dt dt.mem_all).2
  | writePoint | unmapped => exact Nat.zero_le _

/-- An OK response gives back its fields. -/
theorem unpackResponse_packResponse {p : Protocol} {v : PointView} (hp : p.ok = true) {a : Byte} {f : RspFields}
    (h : fieldsFit p v a f) :
    unpackResponse p v (packResponse p a p.status.ok f) = .ok ⟨a, p.status.ok, f⟩ := by
  obtain ⟨hc, dt, hdt, hl, hf, hcode⟩ := decodeRspPayload_bytes h
  rw [packResponse_ok,
    unpackResponse_known (checkFrame_responseBody _ _ _ (hl.trans_le (rspLen_le hp _ dt))) hc hdt,
    decodeOkPayload_legal hl (by rwa [hf]), hf]

/-- A response of another status gives back the status and no fields. -/
theorem unpackResponse_sealFrame_nonOk {p : Protocol} {v : PointView} {a st : Byte} (hst : st ≠ p.status.ok) :
    unpackResponse p v (sealFrame p.crc (responseBody a st [])) = .ok ⟨a, st, .none⟩ :=
  unpackResponse_nonOk (checkFrame_responseBody _ _ _ (Nat.zero_le _)) hst

/-- Settles O6: requests, OK responses and other responses. -/
theorem codecRoundTrip : Obligations.CodecRoundTrip := fun _ _ hp =>
  ⟨fun _ _ hw hf => decodeRequest_encode hp hw hf, fun _ _ => unpackResponse_packResponse hp,
    fun a _ x hst => packResponse_nonOk a x hst ▸ unpackResponse_sealFrame_nonOk hst⟩

/-! ### Descriptors, other statuses, unknown addresses (41_codec.md R222 to R224) -/

/-- A descriptor decodes for every index of its range and every legal type code, discovered or not. -/
theorem fieldsFit_desc {p : Protocol} {v : PointView} {a : Byte} {i : BitVec 8} {d : PointDesc}
    (hc : classify p a = .pointDesc i) (hd : d.fits p.fieldSizes = true) (hcode : Datatype.ofCode p d.dtype ≠ none) :
    fieldsFit p v a (.desc d) := by
  rw [fieldsFit, hc]
  exact ⟨d, rfl, hd, hcode⟩

/-- The type codes of the reference parameters are 0 to 9 (30_encoding.md R163). -/
theorem ofCode_reference_eq_none_iff : ∀ c : Byte, Datatype.ofCode Protocol.reference c = none ↔ 10 ≤ c.toNat := by
  decide +kernel

/-- Settles O11: the length of a descriptor's payload is right, so its type code decides. -/
theorem descriptorTypeCodeIsChecked : Obligations.DescriptorTypeCodeIsChecked := by
  refine ⟨fun p v a i d hp hc hd => ⟨fun hcode => ?_, fun hcode => ?_⟩, ofCode_reference_eq_none_iff⟩
  · have hl : d.bytes.length = rspLen p (.pointDesc i) .u8 := PointDesc.length_bytes_of_fits hd
    have hcheck := checkFrame_responseBody p.crc a p.status.ok (hl.trans_le (rspLen_le hp _ _))
    rw [packResponse_ok, RspFields.bytes, unpackResponse_known (dt := .u8) hcheck (by simp [hc]) (by simp [hc]), hc,
      decodeOkPayload_illegalCode rfl hl (by rwa [PointDesc.ofBytes_bytes hd]), PointDesc.ofBytes_bytes hd]
  · exact unpackResponse_packResponse hp (fieldsFit_desc hc hd hcode)

/-- Settles O12: behind the checks the status is looked at first, and then the length. -/
theorem nonOkResponseWithPayloadIsMalformed : Obligations.NonOkResponseWithPayloadIsMalformed := by
  intro p v a st pl hst hpl hlen
  exact (unpackResponse_nonOk (checkFrame_responseBody _ _ _ hlen) hst).trans
    (if_pos (mt List.eq_nil_of_length_eq_zero hpl))

/-- Settles O13: a status needs no shape, an unknown shape has no payload, and a descriptor's shape needs no point. -/
theorem responseShapeNeedsAKnownAddress : Obligations.ResponseShapeNeedsAKnownAddress := by
  intro p v a hp
  refine ⟨fun st hst => unpackResponse_sealFrame_nonOk hst, fun pl hlen hc => ?_, fun i d hc hd hcode => ?_⟩
  · have hcheck := checkFrame_responseBody p.crc a p.status.ok hlen
    rcases hc with hc | ⟨i, hdt, hc⟩
    · exact unpackResponse_unmapped hcheck hc
    · exact unpackResponse_unknownPoint hcheck hc hdt
  · have hname : d.name.length = p.fieldSizes.pointName := by simpa [PointDesc.fits] using hd
    have hframe := unpackResponse_packResponse (v := v) hp (fieldsFit_desc hc hd hcode)
    rw [packResponse_ok] at hframe
    simpa [responseBody, RspFields.bytes, PointDesc.bytes, hname, ← Nat.add_assoc, Nat.add_comm] using hframe

end Sys2Proof.Machine
end

section
/-!
What the dispatcher answers (42_dispatcher.md): the frame of each answer, the requests stage by stage, and the
five-stage pipeline of R232 that they follow.
-/

namespace Sys2Proof.Machine

/-! ### The frames of the answers (42_dispatcher.md R233) -/

theorem replyFrame_ok (c : Config) (a : Byte) (f : RspFields) :
    replyFrame c.toProtocol a (.ok f) = okFrame c a (f.bytes c.toProtocol) := packResponse_ok c.toProtocol a f

/-- An error is a status without payload, whatever its code (60_exceptions.md R346). -/
theorem replyFrame_error (c : Config) (a : Byte) (e : DispatchError) :
    replyFrame c.toProtocol a (.error e) = statusFrame c a (e.status c.status) := by
  rw [replyFrame, packResponse, RspFields.bytes, ite_self]
  rfl

theorem replyFrame_addr (p : Protocol) (a : Byte) (r : Except DispatchError RspFields) :
    (replyFrame p a r)[1]? = some a := by
  cases r <;> rfl

theorem Answered.ok (s : State) (a : Byte) (f : RspFields) :
    Answered s (s.respond a (.ok f)) (okFrame s.cfg a (f.bytes s.cfg.toProtocol)) :=
  replyFrame_ok s.cfg a f ▸ s.respond_eq a (.ok f)

theorem Answered.error (s : State) (a : Byte) (e : DispatchError) :
    Answered s (s.respond a (.error e)) (statusFrame s.cfg a (e.status s.cfg.status)) :=
  replyFrame_error s.cfg a e ▸ s.respond_eq a (.error e)

/-- Storing a value replaces the point's entry. -/
theorem Responder.setValue_entry {r : Responder} {k : Nat} {e : DbEntry} (x : Value) (he : r.ptDb[k]? = some e) :
    r.setValue k x = { r with ptDb := r.ptDb.set k { desc := e.desc, value := x } } := by
  rw [Responder.setValue, List.modify_eq_set_getElem?, he]
  rfl

/-! ### Stage 1 (42_dispatcher.md R240) -/

theorem serveUnmapped_unmapped {a : Byte} {s : State} (h : classify s.cfg.toProtocol a = .unmapped) :
    serveUnmapped a s = .next (s.notImplemented a) := if_pos h

theorem servePoint_absent {base : Byte} {i : BitVec 8} {s : State}
    {serve : DbEntry → Host.Outcome State Fault Refusal} (hnp : s.cfg.np ≤ i.toNat) (hi : i.toNat < s.cfg.maxPoints) :
    servePoint base i s serve = .next (s.notImplemented (base + i)) := by
  rw [servePoint, if_neg (Nat.not_lt.2 hnp), if_pos hi]
  rfl

/-! ### Stages 2 to 4 on a point of the database (42_dispatcher.md R250, R253, R254) -/

section
variable {s : State} {i : BitVec 8} {e : DbEntry} (hi : i.toNat < s.cfg.np) (he : s.responder.ptDb[i.toNat]? = some e)
include hi he

theorem exec_pointDesc_entry :
    exec (.pointDesc i) s = .next (s.respond (s.cfg.addrs.pointDescBase + i) (.ok (.desc e.desc))) :=
  servePoint_entry hi he

theorem exec_readPointData_readable (hr : e.desc.accessRights &&& s.cfg.access.read ≠ 0) :
    exec (.readPointData i) s = .next (s.respond (s.cfg.addrs.readPointDataBase + i) (.ok (.value e.value))) :=
  (servePoint_entry hi he).trans (if_pos (bne_iff_ne.2 hr))

theorem exec_readPointData_unreadable (hr : e.desc.accessRights &&& s.cfg.access.read = 0) :
    exec (.readPointData i) s =
      .next (s.respond (s.cfg.addrs.readPointDataBase + i) (.error .writeOnlyViolation)) :=
  (servePoint_entry hi he).trans (if_neg (by simp [includesRead, hr]))

theorem exec_writePointData_unwritable (x : Option Value) (hw : e.desc.accessRights &&& s.cfg.access.write = 0) :
    exec (.writePointData i x) s =
      .next (s.respond (s.cfg.addrs.writePointDataBase + i) (.error .readOnlyViolation)) :=
  (servePoint_entry hi he).trans (if_neg (by simp [includesWrite, hw]))

end

/-! ### The pipeline (42_dispatcher.md R232) -/

section
variable {c : Config} {a : Byte} (r : Responder) (x : Option Value)

theorem handle_invalid (h : validAddr c.toProtocol c.np a = false) :
    handle c r a x = ⟨c.status.registerNotImplemented, .none, r.ptDb⟩ := if_pos h

/-- Stage 1 passes a singleton, and no point stage takes it. -/
theorem handle_singleton {q : Singleton} (hc : classify c.toProtocol a = .singleton q) :
    handle c r a x = replyCommand c r (.singleton q) := by
  simp [handle, validAddr_singleton hc, hc]

variable {i : BitVec 8} {e : DbEntry} (hi : i.toNat < c.np) (he : r.ptDb[i.toNat]? = some e)
include hi he

theorem handle_pointDesc (hc : classify c.toProtocol a = .pointDesc i) :
    handle c r a x = ⟨c.status.ok, .desc e.desc, r.ptDb⟩ := by
  simp [handle, replyCommand, validAddr_point (.inl hc), hc, hi, he]

theorem handle_readPoint (hc : classify c.toProtocol a = .readPoint i) :
    handle c r a x = if e.desc.accessRights &&& c.access.read ≠ 0 then ⟨c.status.ok, .value e.value, r.ptDb⟩
      else ⟨c.status.writeOnly, .none, r.ptDb⟩ := by
  simp [handle, validAddr_point (.inr (.inl hc)), hc, hi, he]

theorem handle_writePoint (v : Value) (hc : classify c.toProtocol a = .writePoint i) :
    handle c r a (some v) = if e.desc.accessRights &&& c.access.write ≠ 0 then
        ⟨c.status.ok, .none, r.ptDb.set i.toNat { e with value := v }⟩
      else ⟨c.status.readOnly, .none, r.ptDb⟩ := by
  simp [handle, validAddr_point (.inr (.inr hc)), hc, hi, he]

end

/-- The request at `a`, run in `s`, completes with the reply `r`: the response carries its status and fields, the
database is its database, and nothing else changes. -/
def RepliesWith (o : Host.Outcome State Fault Refusal) (s : State) (a : Byte) (r : Reply) : Prop :=
  ∃ t, o = .next t ∧ t.rTx = s.rTx ++ [packResponse s.cfg.toProtocol a r.status r.fields] ∧
    t.responder = { s.responder with ptDb := r.ptDb } ∧
    t.cfg = s.cfg ∧ t.poller = s.poller ∧ t.events = s.events ∧ t.pTx = s.pTx

section
variable {s : State} {a : Byte} {r : Reply}

theorem RepliesWith.ok {f : RspFields} (h : r = ⟨s.cfg.status.ok, f, s.responder.ptDb⟩) :
    RepliesWith (.next (s.respond a (.ok f))) s a r := by
  subst h
  exact ⟨_, rfl, rfl, rfl, rfl, rfl, rfl, rfl⟩

theorem RepliesWith.error {e : DispatchError} (h : r = ⟨e.status s.cfg.status, .none, s.responder.ptDb⟩) :
    RepliesWith (.next (s.respond a (.error e))) s a r := by
  subst h
  exact ⟨_, rfl, rfl, rfl, rfl, rfl, rfl, rfl⟩

theorem RepliesWith.acceptWrite {k : BitVec 8} {e : DbEntry} {x : Value} (he : s.responder.ptDb[k.toNat]? = some e)
    (h : r = ⟨s.cfg.status.ok, .none, s.responder.ptDb.set k.toNat { e with value := x }⟩) :
    RepliesWith (.next (s.acceptWrite k x)) s (s.cfg.addrs.writePointDataBase + k) r := by
  subst h
  exact ⟨_, rfl, rfl, Responder.setValue_entry x he, rfl, rfl, rfl, rfl⟩

end

/-- A sound database has NP entries (10_state.md R62). -/
theorem State.databaseOk.length_ptDb {s : State} (hdb : s.databaseOk) (hc : s.cfg.ok = true) :
    s.responder.ptDb.length = s.cfg.np := by
  obtain ⟨hdesc, -⟩ := hdb
  obtain ⟨-, -, -, -, -, -, -, hnp, -⟩ := (Config.ok_iff _).1 hc
  simpa [hnp] using congrArg List.length hdesc

/-- The view's datatype of a point is that of its descriptor (41_codec.md R201). -/
theorem State.dtOf_responderView {s : State} {k : Nat} {e : DbEntry} (hk : k < s.cfg.np)
    (he : s.responder.ptDb[k]? = some e) :
    s.responderView.dtOf k = Datatype.ofCode s.cfg.toProtocol e.desc.dtype := by
  simp [State.responderView, PointView.dtOf, hk, he]

/-- Stage 1 of a point request is stage 1 of the pipeline; below NP the rest is left to the later stages. -/
theorem servePoint_repliesWith {s : State} {base : Byte} {i : BitVec 8} {x : Option Value}
    {serve : DbEntry → Host.Outcome State Fault Refusal} (hc : s.cfg.ok = true) (hdb : s.databaseOk)
    (hi : i.toNat < s.cfg.maxPoints)
    (hcls : classify s.cfg.toProtocol (base + i) = .pointDesc i ∨ classify s.cfg.toProtocol (base + i) = .readPoint i ∨
      classify s.cfg.toProtocol (base + i) = .writePoint i)
    (hserve : ∀ e, i.toNat < s.cfg.np → s.responder.ptDb[i.toNat]? = some e →
      RepliesWith (servePoint base i s serve) s (base + i) (handle s.cfg s.responder (base + i) x)) :
    RepliesWith (servePoint base i s serve) s (base + i) (handle s.cfg s.responder (base + i) x) := by
  by_cases hnp : i.toNat < s.cfg.np
  · exact hserve _ hnp (List.getElem?_eq_getElem ((hdb.length_ptDb hc).symm ▸ hnp))
  · rw [servePoint_absent (Nat.not_lt.1 hnp) hi]
    exact .error (handle_invalid _ _ ((validAddr_point hcls).trans (decide_eq_false hnp)))

section
variable {s : State} {k : BitVec 8} (hc : s.cfg.ok = true) (hdb : s.databaseOk)
  (haddrs : s.cfg.addrs.ok s.cfg.maxPoints = true) (hk : k.toNat < s.cfg.maxPoints)
include hc hdb haddrs hk

theorem exec_pointDesc_repliesWith (x : Option Value) :
    RepliesWith (exec (.pointDesc k) s) s (s.cfg.addrs.pointDescBase + k)
      (handle s.cfg s.responder (s.cfg.addrs.pointDescBase + k) x) := by
  have hcls := classify_pointDescBase_add haddrs hk
  refine servePoint_repliesWith hc hdb hk (.inl hcls) fun e hnp he => ?_
  rw [servePoint_entry hnp he]
  exact .ok (handle_pointDesc _ _ hnp he hcls)

theorem exec_readPointData_repliesWith (x : Option Value) :
    RepliesWith (exec (.readPointData k) s) s (s.cfg.addrs.readPointDataBase + k)
      (handle s.cfg s.responder (s.cfg.addrs.readPointDataBase + k) x) := by
  have hcls := classify_readPointDataBase_add haddrs hk
  refine servePoint_repliesWith hc hdb hk (.inr (.inl hcls)) fun e hnp he => ?_
  have hreply := handle_readPoint s.responder x hnp he hcls
  change RepliesWith (exec (.readPointData k) s) _ _ _
  by_cases hr : e.desc.accessRights &&& s.cfg.access.read = 0
  · rw [exec_readPointData_unreadable hnp he hr]
    exact .error (hreply.trans (if_neg (not_not.2 hr)))
  · rw [exec_readPointData_readable hnp he hr]
    exact .ok (hreply.trans (if_pos hr))

/-- A write to a point of the database needs a value of its datatype; the others need none (41_codec.md R214). -/
theorem exec_writePointData_repliesWith {x : Option Value}
    (hx : ∀ e, k.toNat < s.cfg.np → s.responder.ptDb[k.toNat]? = some e →
      ∃ v, x = some v ∧ e.desc.takes s.cfg.toProtocol v = true) :
    RepliesWith (exec (.writePointData k x) s) s (s.cfg.addrs.writePointDataBase + k)
      (handle s.cfg s.responder (s.cfg.addrs.writePointDataBase + k) x) := by
  have hcls := classify_writePointDataBase_add haddrs hk
  refine servePoint_repliesWith hc hdb hk (.inr (.inr hcls)) fun e hnp he => ?_
  obtain ⟨v, rfl, htakes⟩ := hx e hnp he
  have hreply := handle_writePoint s.responder hnp he v hcls
  change RepliesWith (exec (.writePointData k (some v)) s) _ _ _
  by_cases hw : e.desc.accessRights &&& s.cfg.access.write = 0
  · rw [exec_writePointData_unwritable hnp he _ hw]
    exact .error (hreply.trans (if_neg (not_not.2 hw)))
  · rw [exec_writePointData_accepted hnp he (bne_iff_ne.2 hw) htakes]
    exact .acceptWrite he (hreply.trans (if_pos hw))

end

/-- A well-formed write carries a value of the point's datatype where the responder has the point
(41_codec.md R210, R214). -/
theorem wf_writePointData {s : State} {k : BitVec 8} {x : Option Value}
    (hw : (Instr.writePointData k x).wf s.cfg.toProtocol s.responderView = true) :
    k.toNat < s.cfg.maxPoints ∧ ∀ e, k.toNat < s.cfg.np → s.responder.ptDb[k.toNat]? = some e →
      ∃ v, x = some v ∧ e.desc.takes s.cfg.toProtocol v = true := by
  cases x with
  | none =>
    obtain ⟨hk, hcount⟩ : k.toNat < s.cfg.maxPoints ∧ ¬ k.toNat < s.responderView.count := by
      simpa [Instr.wf] using hw
    exact ⟨hk, fun _ hnp => absurd hnp hcount⟩
  | some v =>
    obtain ⟨⟨hk, hdt⟩, hfits⟩ : (k.toNat < s.cfg.maxPoints ∧ s.responderView.dtOf k.toNat = some v.dt) ∧
        v.fits s.cfg.toProtocol = true := by simpa [Instr.wf] using hw
    exact ⟨hk, fun e hnp he =>
      ⟨v, rfl, PointDesc.takes_iff.2 ⟨(State.dtOf_responderView hnp he).symm.trans hdt, hfits⟩⟩⟩

/-- Settles O24: the meaning of a request is the pipeline's stage for the class of its address. -/
theorem requestMeaningsAreThePipeline : Obligations.RequestMeaningsAreThePipeline := by
  intro i s a hc hdb hw ha
  change RepliesWith (exec i s) s a (handle s.cfg s.responder a (requestValue i))
  obtain ⟨-, -, -, -, -, -, hp, -⟩ := (Config.ok_iff _).1 hc
  obtain ⟨-, -, -, -, -, -, -, haddrs⟩ := (Protocol.ok_iff _).1 hp
  have singleton (q : Singleton) (x : Option Value) :
      handle s.cfg s.responder (q.addr s.cfg.addrs) x = replyCommand s.cfg s.responder (.singleton q) :=
    handle_singleton _ _ (classify_singletonAddr haddrs q)
  have unmapped {b : Byte} (hb : classify s.cfg.toProtocol b = .unmapped) :
      RepliesWith (serveUnmapped b s) s b (handle s.cfg s.responder b none) := by
    rw [serveUnmapped_unmapped hb]
    exact .error (handle_invalid _ _ (validAddr_unmapped hb))
  cases i with
  | itfVersion => cases ha; exact .ok (singleton .itfVersion _)
  | brdId => cases ha; exact .ok (singleton .brdId _)
  | brdStatus => cases ha; exact .ok (singleton .brdStatus _)
  | brdCmd cmd => cases ha; exact .error (singleton .brdCmd _)
  | batStatus => cases ha; exact .ok (singleton .batStatus _)
  | batCharge => cases ha; exact .ok (singleton .batCharge _)
  | svrMainAddr => cases ha; exact .ok (singleton .svrMainAddr _)
  | svrSecAddr => cases ha; exact .ok (singleton .svrSecAddr _)
  | dspWrite msg => cases ha; exact .error (singleton .dspWrite _)
  | radioStatus v => cases ha; exact .error (singleton .radioStatus _)
  | radioStrength v => cases ha; exact .error (singleton .radioStrength _)
  | unmappedLo0B => cases ha; exact unmapped (beq_iff_eq.1 hw)
  | unmappedLo0C lo => cases ha; rw [← UnmappedRow.addr0C_eq]; exact unmapped (beq_iff_eq.1 hw)
  | unmappedLo10 lo => cases ha; rw [← UnmappedRow.addr10_eq]; exact unmapped (beq_iff_eq.1 hw)
  | unmappedHi b =>
    cases ha
    obtain ⟨hb, -⟩ := Bool.and_eq_true_iff.1 hw
    exact unmapped (beq_iff_eq.1 hb)
  | pointDesc k => cases ha; exact exec_pointDesc_repliesWith hc hdb haddrs (of_decide_eq_true hw) _
  | readPointData k => cases ha; exact exec_readPointData_repliesWith hc hdb haddrs (of_decide_eq_true hw) _
  | writePointData k x =>
    cases ha
    obtain ⟨hk, hx⟩ := wf_writePointData hw
    exact exec_writePointData_repliesWith hc hdb haddrs hk hx
  | fsmInit | fsmSendItfVer | fsmWaitItfVerAns | fsmProcItfVer | fsmSendBrdId | fsmWaitBrdIdAns | fsmProcBrdId
  | fsmSendPtDesc | fsmWaitPtDescAns | fsmProcPtDesc | fsmBuildSch | fsmRunSch | fsmSendPtVal | fsmWaitPtValAns
  | fsmProcPtVal => cases ha


/-! ### What every request keeps (42_dispatcher.md R233, R256) -/

/-- Settles O22: a request that completes answers, which writes no register, or is an accepted write. -/
theorem onlyAnAcceptedWriteChangesTheResponder : Obligations.OnlyAnAcceptedWriteChangesTheResponder := by
  intro i s t hi ht
  obtain ⟨a, ha⟩ := Option.ne_none_iff_exists'.1 hi
  rcases exec_request ha ht with ⟨r, rfl⟩ | ⟨k, x, e, rfl, hk, he, hw, -, rfl⟩
  · exact .inl rfl
  · exact .inr ⟨k, x, e, rfl, hk, he, bne_iff_ne.1 hw, Responder.setValue_entry x he⟩

theorem exec_answers {i : Instr} {a : Byte} {s t : State} (ha : requestAddr s.cfg.addrs i = some a)
    (ht : exec i s = .next t) : ∃ r, t.rTx = s.rTx ++ [replyFrame s.cfg.toProtocol a r] := by
  rcases exec_request ha ht with ⟨r, rfl⟩ | ⟨k, x, e, rfl, -, -, -, -, rfl⟩
  · exact ⟨r, rfl⟩
  · cases ha; exact ⟨.ok .none, s.acceptWrite_rTx k x⟩

/-- Settles O23: the one frame is the answer to the address, and its payload fits a frame. -/
theorem responsesEchoTheAddress : Obligations.ResponsesEchoTheAddress := by
  intro i s t a hc hdb ha ht
  obtain ⟨r, hrTx⟩ := exec_answers ha ht
  refine ⟨_, hrTx, replyFrame_addr _ a r, ?_⟩
  rcases (exec_transmits hc hdb ha ht).responder with hnone | ⟨b, q, hfits, hrTx'⟩
  · simp [hrTx] at hnone
  · obtain ⟨hmin, hmax, -⟩ := replyFrame_passes hfits b
    have hframe : [replyFrame s.cfg.toProtocol a r] = [replyFrame s.cfg.toProtocol b q] :=
      List.append_cancel_left (hrTx.symm.trans hrTx')
    rw [List.singleton_inj.1 hframe]
    exact ⟨hmin, hmax⟩

/-! ### The answer of each request (42_dispatcher.md R240 to R254) -/

section
variable {i : Instr} {s : State} {a : Byte}

theorem exists_answered_ok {f : RspFields} (h : exec i s = .next (s.respond a (.ok f))) :
    ∃ t, exec i s = .next t ∧ Answered s t (okFrame s.cfg a (f.bytes s.cfg.toProtocol)) :=
  ⟨_, h, .ok s a f⟩

theorem exists_answered_error {e : DispatchError} (h : exec i s = .next (s.respond a (.error e))) :
    ∃ t, exec i s = .next t ∧ Answered s t (statusFrame s.cfg a (e.status s.cfg.status)) :=
  ⟨_, h, .error s a e⟩

theorem exists_answered_notImplemented (h : exec i s = .next (s.notImplemented a)) :
    ∃ t, exec i s = .next t ∧ Answered s t (statusFrame s.cfg a s.cfg.status.registerNotImplemented) :=
  exists_answered_error (e := .registerNotImplemented) h

end

/-- Settles O16: each readable singleton answers the field of its register. -/
theorem readableSingletonsAnswerTheirRegister : Obligations.ReadableSingletonsAnswerTheirRegister := fun s =>
  ⟨exists_answered_ok (f := .version s.cfg.sensorItfVersion) rfl,
    exists_answered_ok (f := .board s.cfg.brd) rfl,
    exists_answered_ok (f := .brdStatus s.responder.brdStatus) rfl,
    exists_answered_ok (f := .batStatus s.responder.batStatus) rfl,
    exists_answered_ok (f := .batCharge s.responder.batCharge) rfl,
    exists_answered_ok (f := .svrMain s.responder.svrMain) rfl,
    exists_answered_ok (f := .svrSec s.responder.svrSec) rfl⟩

/-- Settles O17: stage 5 answers its status, and reads no operand. -/
theorem unservedSingletonsAnswerError : Obligations.UnservedSingletonsAnswerError := fun _ _ _ =>
  ⟨exists_answered_error (e := .unknownCommand) rfl, exists_answered_error (e := .unknownCommand) rfl,
    exists_answered_error (e := .unknownCommand) rfl, exists_answered_error (e := .unknownCommand) rfl⟩

/-- Settles O18: stage 1 answers before any other stage. -/
theorem invalidAddressesAnswerNotImplemented : Obligations.InvalidAddressesAnswerNotImplemented := by
  intro s answered
  refine ⟨fun h => ?_, fun lo h => ?_, fun lo h => ?_, fun a h => ?_, fun i hnp hi => ⟨?_, ?_, fun x => ?_⟩⟩
  · exact exists_answered_notImplemented (serveUnmapped_unmapped h)
  · rw [← UnmappedRow.addr0C_eq] at h ⊢
    exact exists_answered_notImplemented (serveUnmapped_unmapped h)
  · rw [← UnmappedRow.addr10_eq] at h ⊢
    exact exists_answered_notImplemented (serveUnmapped_unmapped h)
  · exact exists_answered_notImplemented (serveUnmapped_unmapped h)
  · exact exists_answered_notImplemented (servePoint_absent hnp hi)
  · exact exists_answered_notImplemented (servePoint_absent hnp hi)
  · exact exists_answered_notImplemented (servePoint_absent hnp hi)

/-- Settles O19: no access right is looked at. -/
theorem pointDescAnswersTheDescriptor : Obligations.PointDescAnswersTheDescriptor := fun _ _ _ hi he =>
  exists_answered_ok (exec_pointDesc_entry hi he)

/-- Settles O20: the two sides of the read right. -/
theorem readPointDataAnswersByAccessRights : Obligations.ReadPointDataAnswersByAccessRights := fun _ _ _ hi he =>
  ⟨fun hr => exists_answered_ok (exec_readPointData_readable hi he hr),
    fun hr => exists_answered_error (exec_readPointData_unreadable hi he hr)⟩

/-- Settles O21: the two sides of the write right; an accepted value replaces the one in the point's entry. -/
theorem writePointDataWritesByAccessRights : Obligations.WritePointDataWritesByAccessRights := by
  intro s i e x hi he hdt hfits
  refine ⟨fun hw => ?_, fun hw => exists_answered_error (exec_writePointData_unwritable hi he _ hw)⟩
  refine ⟨_, exec_writePointData_accepted hi he (bne_iff_ne.2 hw) (PointDesc.takes_iff.2 ⟨hdt, hfits⟩),
    Responder.setValue_entry x he, ?_, rfl, rfl, rfl, rfl⟩
  rw [State.acceptWrite_rTx, replyFrame_ok]
  rfl

end Sys2Proof.Machine
end

section
/-!
What the events of the responder's side do (42_dispatcher.md R230, R231, R234): bytes, silences, and the moves of the
sensor application.
-/

namespace Sys2Proof.Machine

/-! ### The sensor side's receive path (42_dispatcher.md R230, R231) -/

/-- Settles O46: the accepted byte is written at the counter, and a write reads anew at its own offset only. -/
theorem responderReceivesBytes : Obligations.ResponderReceivesBytes := by
  intro s es b hc hs hwf he
  rw [step_event hc hs he]
  exact ⟨fun hroom => ⟨_, if_pos hroom, (Memory.write_spec hwf _ b).2⟩, fun hfull => if_neg (Nat.not_lt.2 hfull)⟩

section
variable {s : State} {buf : Frame}

theorem onResponderRxIdle_silent (h : s.responder.srxCount = 0) : onResponderRxIdle s = .next s := if_pos h

theorem onResponderRxIdle_undecodable {e : CodecError} (h : s.responder.srxCount ≠ 0)
    (hbuf : s.responderFrame = some buf) (hdec : decodeRequest s.cfg.toProtocol s.responderView buf = .error e) :
    onResponderRxIdle s = .next s.consumed := by
  simp only [onResponderRxIdle, if_neg h, hbuf, hdec]

theorem onResponderRxIdle_request {i : Instr} (h : s.responder.srxCount ≠ 0)
    (hbuf : s.responderFrame = some buf) (hdec : decodeRequest s.cfg.toProtocol s.responderView buf = .ok i) :
    onResponderRxIdle s = exec i s.consumed := by
  simp only [onResponderRxIdle, if_neg h, hbuf, hdec]

end

theorem decodeRequest_of_decode {p : Protocol} {v : PointView} {buf : Frame} {i : Instr}
    (h : decode p v (.frame buf) = .ok i) : decodeRequest p v buf = .ok i := by
  rw [decode] at h
  split at h
  · cases h; assumption
  · cases h

/-- Settles O43: the request runs in the state that has consumed the buffer. -/
theorem rxIdleRunsTheDecodedRequest : Obligations.RxIdleRunsTheDecodedRequest := by
  intro s es buf i hc hs he hcount hbuf hdec
  rw [step_event hc hs he]
  exact ⟨(s.withEvents es).consumed,
    onResponderRxIdle_request (s := s.withEvents es) hcount hbuf (decodeRequest_of_decode hdec),
    rfl, rfl, rfl, rfl, rfl, rfl, rfl⟩

/-- Settles O44: consuming the buffer transmits nothing, and silence without bytes consumes nothing. -/
theorem badFramesAreDiscarded : Obligations.BadFramesAreDiscarded := by
  intro s es hc hs he
  rw [step_event hc hs he]
  refine ⟨fun hcount => onResponderRxIdle_silent hcount, fun buf e hcount hbuf hdec => ?_⟩
  exact ⟨_, onResponderRxIdle_undecodable (s := s.withEvents es) hcount hbuf hdec, rfl, rfl, rfl, rfl, rfl, rfl⟩

/-! ### The sensor application (42_dispatcher.md R234) -/

section
variable {s : State} {i : BitVec 8} {e : DbEntry} {x : Value}

theorem onAppSet_pointValue (hi : i.toNat < s.cfg.np) (he : s.responder.ptDb[i.toNat]? = some e) :
    onAppSet (.pointValue i x) s = if e.desc.takes s.cfg.toProtocol x = true then
      .next (s.withResponder (s.responder.setValue i.toNat x)) else .refused .appSetWrongDatatype := by
  simp only [onAppSet, if_pos hi, he]

theorem onAppSet_noSuchPoint (hi : s.cfg.np ≤ i.toNat) :
    onAppSet (.pointValue i x) s = .refused .appSetNoSuchPoint := if_neg (Nat.not_lt.2 hi)

end

/-- A sound database has an entry for the indices below NP and no other (10_state.md R62). -/
theorem State.databaseOk.lt_np_of_entry {s : State} (hdb : s.databaseOk) (hc : s.cfg.ok = true) {k : Nat} {e : DbEntry}
    (he : s.responder.ptDb[k]? = some e) : k < s.cfg.np :=
  hdb.length_ptDb hc ▸ (List.getElem?_eq_some_iff.1 he).1

theorem State.databaseOk.np_le_of_no_entry {s : State} (hdb : s.databaseOk) (hc : s.cfg.ok = true) {k : Nat}
    (he : s.responder.ptDb[k]? = none) : s.cfg.np ≤ k :=
  hdb.length_ptDb hc ▸ List.getElem?_eq_none_iff.1 he

/-- Settles O47: a register takes any value, an address one of its size, and a point of the database one of its
datatype and width. -/
theorem appSetWritesOneField : Obligations.AppSetWritesOneField := by
  intro s es f hc hs hdb he
  rw [step_event hc hs he]
  refine ⟨fun v hf => ?_, fun v hf => ?_, fun v hf => ?_, fun a hf => ?_, fun a hf => ?_, fun i x e hf hent => ?_,
    fun i x hf hent => ?_⟩ <;> subst hf
  · rfl
  · rfl
  · rfl
  · exact ⟨fun hl => if_pos hl, fun hl => if_neg hl⟩
  · exact ⟨fun hl => if_pos hl, fun hl => if_neg hl⟩
  · have hset := onAppSet_pointValue (s := s.withEvents es) (x := x) (hdb.lt_np_of_entry hc hent) hent
    refine ⟨fun hdt hfits => ?_, fun hbad => hset.trans (if_neg fun htakes => ?_)⟩
    · refine (hset.trans (if_pos (PointDesc.takes_iff.2 ⟨hdt, hfits⟩))).trans ?_
      rw [State.withEvents_responder, Responder.setValue_entry x hent]
      rfl
    · obtain ⟨hdt, hfits⟩ := PointDesc.takes_iff.1 htakes
      rcases hbad with hbad | hbad
      · exact hbad hdt
      · exact Bool.false_ne_true (hbad.symm.trans hfits)
  · exact onAppSet_noSuchPoint (s := s.withEvents es) (hdb.np_le_of_no_entry hc hent)

end Sys2Proof.Machine
end

section
/-!
What each poller state does in one tick (43_poller_fsm.md sections 1 to 8): a rule for the driver on top of what a
handler did, a rule for each shared operation, and the statement of each state.
-/

namespace Sys2Proof.Machine

/-! ### What a handler does to the poller -/

/-- An update of the poller's registers transmits nothing. -/
theorem PollerStepped.withPoller (s : State) (p : Poller) : PollerStepped s (s.withPoller p) p [] :=
  ⟨rfl, rfl, rfl, rfl, (List.append_nil _).symm, rfl⟩

theorem PollerStepped.refl (s : State) : PollerStepped s s s.poller [] := .withPoller s s.poller

/-- The transmit action: one request frame, the receive path emptied and the timeout armed (43_poller_fsm.md R274). -/
theorem PollerStepped.send (s : State) (a : Byte) :
    PollerStepped s (s.send a) (s.poller.arm (BitVec.ofNat 32 s.cfg.timeoutTicks)) [sealFrame s.cfg.crc [0x02, a]] :=
  ⟨rfl, rfl, rfl, rfl, rfl, rfl⟩

section
variable {s t : State} {p : Poller} {fs : List Frame}

/-- The CRC register and the free values read are not part of what a step does to the poller. -/
theorem PollerStepped.of_crcIdle (h : PollerStepped s.crcIdle t p fs) : PollerStepped s t p fs :=
  ⟨h.cfg, h.poller, h.responder, h.events, h.pTx, h.rTx⟩

theorem PollerStepped.of_nextFree (h : PollerStepped s.nextFree t p fs) : PollerStepped s t p fs :=
  ⟨h.cfg, h.poller, h.responder, h.events, h.pTx, h.rTx⟩

/-- What happens after an update of the poller's registers. -/
theorem PollerStepped.of_withPoller {q : Poller} (h : PollerStepped (s.withPoller q) t p fs) :
    PollerStepped s t p fs :=
  ⟨h.cfg, h.poller, h.responder, h.events, h.pTx, h.rTx⟩

end

/-! ### The driver (43_poller_fsm.md R270) -/

/-- The driver goes to the state that the result selects. -/
theorem drive_of_target {f g : FsmState} {h : Handled} (hg : f.target h.result = .used g) :
    drive f h = .next (h.state.withPoller (h.state.poller.goto g.code)) := by
  unfold drive
  cases hr : h.result <;> simp only [hr, FsmState.target] at hg ⊢
  case error => cases hg; rfl
  case waitOk => cases hg; rfl
  all_goals rw [hg]; rfl

/-- The driver writes the state register, and nothing else, on top of what the handler did. -/
theorem drive_stepped {s : State} {f g : FsmState} {h : Handled} {p : Poller} {fs : List Frame}
    (hg : f.target h.result = .used g) (hs : PollerStepped s h.state p fs) :
    ∃ t, drive f h = .next t ∧ PollerStepped s t (p.goto g.code) fs := by
  refine ⟨_, drive_of_target hg, hs.cfg, ?_, hs.responder, hs.events, hs.pTx, hs.rTx⟩
  rw [State.withPoller_poller, hs.poller]

/-- A handler that ends with `result OK`. -/
theorem drive_ok {s u : State} {f g : FsmState} {p : Poller} {fs : List Frame} (hg : (fsmRow f).next = .used g)
    (hs : PollerStepped s u p fs) : ∃ t, drive f (.ok u) = .next t ∧ PollerStepped s t (p.goto g.code) fs :=
  drive_stepped hg hs

/-- A handler that ends with `result WAIT_ABORT` and no error. -/
theorem drive_abort {s u : State} {f g : FsmState} {p : Poller} {fs : List Frame} (hg : (fsmRow f).abort = .used g)
    (hs : PollerStepped s u p fs) : ∃ t, drive f (.abort u) = .next t ∧ PollerStepped s t (p.goto g.code) fs :=
  drive_stepped hg hs

/-- A handler that ends with `result WAIT_OK` stays. -/
theorem drive_waitOk {s u : State} {f : FsmState} {p : Poller} {fs : List Frame}
    (hs : PollerStepped s u p fs) : ∃ t, drive f (.waitOk u) = .next t ∧ PollerStepped s t (p.goto f.code) fs :=
  drive_stepped rfl hs

/-- A step that takes a tick runs what the state register decodes to (43_poller_fsm.md R270, R271). -/
theorem step_tick_exec {s : State} {es : List Event} {i : Instr} (hc : s.cfg.ok = true)
    (he : s.events = .tick :: es) (hi : decodeState s.poller.state = some i) : step s = exec i (s.withEvents es) := by
  have hs : s.poller.state ≠ 15 := fun h => by rw [h] at hi; cases hi
  rw [step_event hc hs he]
  change onTick (s.withEvents es) = _
  rw [onTick, State.withEvents_poller, hi]

theorem decodeState_of_decode {p : Protocol} {v : PointView} {c : BitVec 4} {i : Instr}
    (h : decode p v (.stateCode c) = .ok i) : decodeState c = some i := by
  rw [decode] at h
  split at h <;> cases h
  assumption

/-- Settles O42: the tick looks at the state register of the state with the event taken. -/
theorem tickRunsTheDecodedState : Obligations.TickRunsTheDecodedState :=
  fun _ _ _ _ _ hc he hi => step_tick_exec hc he (decodeState_of_decode hi)

/-- Settles O26: INIT clears the session and answers OK. -/
theorem initClearsTheSession : Obligations.InitClearsTheSession := fun s =>
  drive_ok (f := .init) (g := .sendItfVer) (p := s.poller.clearSession s.cfg.maxPoints) rfl (.withPoller s _)

/-- Settles O28: both handlers are the transmit action alone. -/
theorem handshakeRequestsAreSent : Obligations.HandshakeRequestsAreSent := fun s =>
  let p := s.poller.arm (BitVec.ofNat 32 s.cfg.timeoutTicks)
  ⟨drive_ok (f := .sendItfVer) (g := .waitItfVerAns) (p := p) rfl (.send s _),
    drive_ok (f := .sendBrdId) (g := .waitBrdIdAns) (p := p) rfl (.send s _)⟩

/-! ### The wait states (43_poller_fsm.md R276 to R280) -/

section
variable {s : State}

theorem waitAns_flagged (hf : s.poller.frameArrived = true) : waitAns s = ⟨s, .waitStop, none⟩ := if_pos hf

variable (hf : s.poller.frameArrived = false)
include hf

theorem waitAns_counting (ht : s.poller.tickCnt + 1 ≤ s.poller.timeoutTicks) :
    waitAns s = ⟨s.withPoller s.poller.countTick, .waitOk, none⟩ :=
  (if_neg (by simp [hf])).trans (if_neg (BitVec.not_lt.2 ht))

theorem waitAns_pending (ht : s.poller.timeoutTicks < s.poller.tickCnt + 1) (hrx : s.poller.rxCount ≠ 0) :
    waitAns s = ⟨s.withPoller s.poller.countTick, .waitStop, none⟩ :=
  (if_neg (by simp [hf])).trans ((if_pos ht).trans (if_pos hrx))

theorem waitAns_timeout (ht : s.poller.timeoutTicks < s.poller.tickCnt + 1) (hrx : s.poller.rxCount = 0) :
    waitAns s = ⟨s.withPoller s.poller.countTick, .waitAbort, some .protocolTimeout⟩ :=
  (if_neg (by simp [hf])).trans ((if_pos ht).trans (if_neg (not_not.2 hrx)))

end

/-- The four outcomes of a wait state whose row of the table has a used abort entry. -/
theorem drive_waitAns {f proc retry : FsmState} (hnext : (fsmRow f).next = .used proc)
    (habort : (fsmRow f).abort = .used retry) (s : State) :
    (s.poller.frameArrived = true → ∃ t, drive f (waitAns s) = .next t ∧
      PollerStepped s t (s.poller.goto proc.code) []) ∧
    (s.poller.frameArrived = false → s.poller.tickCnt + 1 ≤ s.poller.timeoutTicks →
      ∃ t, drive f (waitAns s) = .next t ∧ PollerStepped s t (s.poller.countTick.goto f.code) []) ∧
    (s.poller.frameArrived = false → s.poller.timeoutTicks < s.poller.tickCnt + 1 → s.poller.rxCount ≠ 0 →
      ∃ t, drive f (waitAns s) = .next t ∧ PollerStepped s t (s.poller.countTick.goto proc.code) []) ∧
    (s.poller.frameArrived = false → s.poller.timeoutTicks < s.poller.tickCnt + 1 → s.poller.rxCount = 0 →
      ∃ t, drive f (waitAns s) = .next t ∧ PollerStepped s t (s.poller.countTick.goto retry.code) []) := by
  refine ⟨fun hf => ?_, fun hf ht => ?_, fun hf ht hrx => ?_, fun hf ht hrx => ?_⟩
  · rw [waitAns_flagged hf]; exact drive_stepped hnext (.refl s)
  · rw [waitAns_counting hf ht]; exact drive_stepped (g := f) rfl (.withPoller s _)
  · rw [waitAns_pending hf ht hrx]; exact drive_stepped hnext (.withPoller s _)
  · rw [waitAns_timeout hf ht hrx]; exact drive_stepped habort (.withPoller s _)

/-- Settles O27: the four rows of the table differ in their targets only. -/
theorem waitStatesRunWaitAns : Obligations.WaitStatesRunWaitAns := by
  simp only [Obligations.WaitStatesRunWaitAns, List.forall_mem_cons]
  exact ⟨drive_waitAns (f := .waitItfVerAns) rfl rfl, drive_waitAns (f := .waitBrdIdAns) rfl rfl,
    drive_waitAns (f := .waitPtDescAns) rfl rfl, drive_waitAns (f := .waitPtValAns) rfl rfl, by simp⟩

/-! ### The `PROC_*` states -/

/-- A `PROC_*` state drives the judgement of the answer in the receive buffer; decoding it writes the CRC register
alone (41_codec.md R220). -/
theorem process_stepped {s : State} {buf : Frame} {f g : FsmState} {p : Poller} {h : Handled}
    {judge : Except CodecError Response → State → Handled} (hbuf : s.pollerFrame = some buf)
    (hj : judge (s.answer buf) s.crcIdle = h) (hg : f.target h.result = .used g)
    (hs : PollerStepped s.crcIdle h.state p []) :
    ∃ t, driveOrFault f (processAnswer s judge) = .next t ∧ PollerStepped s t (p.goto g.code) [] := by
  rw [processAnswer, hbuf]
  exact drive_stepped (hj ▸ hg) (hj ▸ hs).of_crcIdle

/-- Settles O29: the judgement writes nothing, and either accepts the supported version or fails. -/
theorem procItfVerChecksTheVersion : Obligations.ProcItfVerChecksTheVersion := by
  intro s buf hbuf
  rcases judgeItfVer_cases (s.answer buf) s.crcIdle with ⟨hok, h⟩ | ⟨hne, e, h⟩
  · exact ⟨fun _ => process_stepped (f := .procItfVer) (g := .sendBrdId) hbuf h rfl (.refl _),
      fun hbad => absurd hok hbad⟩
  · exact ⟨fun hok => absurd hok hne,
      fun _ => process_stepped (f := .procItfVer) (g := .init) hbuf h rfl (.refl _)⟩

/-- Settles O30: the identity is copied before its point count is judged. -/
theorem procBrdIdChecksThePointCount : Obligations.ProcBrdIdChecksThePointCount := by
  intro s buf hbuf
  have same {b b' : BoardId} (hb : s.answer buf = .ok ⟨s.cfg.addrs.brdId, s.cfg.status.ok, .board b⟩)
      (hb' : s.answer buf = .ok ⟨s.cfg.addrs.brdId, s.cfg.status.ok, .board b'⟩) : b = b' := by
    cases hb.symm.trans hb'; rfl
  rcases judgeBrdId_cases (s.answer buf) s.crcIdle with
    ⟨b, hb, hpos, hmax, h⟩ | ⟨b, hb, hbad, h⟩ | ⟨hne, h⟩
  · refine ⟨fun b' hb' => ?_, fun hne => absurd hb (hne b)⟩
    cases same hb hb'
    refine ⟨fun _ _ => ?_, fun hbad => ?_⟩
    · exact process_stepped (f := .procBrdId) (g := .sendPtDesc) (p := (s.poller.setBoard b).clearCount)
        hbuf h rfl (.withPoller _ _)
    · rw [State.crcIdle_cfg] at hmax
      omega
  · refine ⟨fun b' hb' => ?_, fun hne => absurd hb (hne b)⟩
    cases same hb hb'
    refine ⟨fun hpos hmax => ?_, fun _ => ?_⟩
    · rw [State.crcIdle_cfg] at hbad
      omega
    · exact process_stepped (f := .procBrdId) (g := .init) (p := s.poller.setBoard b) hbuf h rfl (.withPoller _ _)
  · exact ⟨fun b hb => absurd hb (hne b),
      fun _ => process_stepped (f := .procBrdId) (g := .init) hbuf h rfl (.refl _)⟩

/-! ### The counted transmissions (43_poller_fsm.md R292, R306) -/

section
variable {s : State} {f g : FsmState} (a : Byte)

/-- An attempt beyond `MAX_RETRIES` is counted, transmits nothing and resets the session. -/
theorem drive_countedSend_exhausted (h : s.cfg.maxRetries < (s.poller.retries + 1).toNat) :
    ∃ t, drive f (countedSend s a) = .next t ∧ PollerStepped s t (s.poller.countRetry.goto 0) [] := by
  rcases countedSend_cases s a with ⟨-, hs⟩ | ⟨hle, -⟩
  · rw [hs]
    exact drive_stepped (g := .init) (by cases f <;> rfl) (.withPoller s _)
  · omega

/-- Another attempt is counted and sent. -/
theorem drive_countedSend_sent (hg : (fsmRow f).next = .used g) (h : (s.poller.retries + 1).toNat ≤ s.cfg.maxRetries) :
    ∃ t, drive f (countedSend s a) = .next t ∧ PollerStepped s t
      ((s.poller.countRetry.arm (BitVec.ofNat 32 s.cfg.timeoutTicks)).goto g.code)
      [sealFrame s.cfg.crc [0x02, a]] := by
  rcases countedSend_cases s a with ⟨hlt, -⟩ | ⟨-, hs⟩
  · omega
  · rw [hs]
    exact drive_stepped hg (PollerStepped.send (s.withPoller _) a).of_withPoller

end

/-- A step from the state that has read the point count is one from the state before. -/
theorem stepped_of_nextFree {s : State} {p : Poller} {fs : List Frame} {o : Host.Outcome State Fault Refusal}
    (h : ∃ t, o = .next t ∧ PollerStepped s.nextFree t p fs) : ∃ t, o = .next t ∧ PollerStepped s t p fs :=
  let ⟨t, ht, hs⟩ := h
  ⟨t, ht, hs.of_nextFree⟩

/-- Settles O31: exhaustion is tested before the attempt is counted. -/
theorem sendPtDescAsksForTheNextDescriptor : Obligations.SendPtDescAsksForTheNextDescriptor := by
  intro s n hsome hnone
  have hn : s.numOfPoints = n := by
    cases hb : s.poller.brd with
    | some b => rw [State.numOfPoints_some hb, hsome b hb]
    | none => rw [State.numOfPoints_none hb, hnone hb]
  change (_ → ∃ t, drive .sendPtDesc (handleSendPtDesc s) = .next t ∧ _) ∧
    (_ → _ → ∃ t, drive .sendPtDesc (handleSendPtDesc s) = .next t ∧ _) ∧
    (_ → _ → ∃ t, drive .sendPtDesc (handleSendPtDesc s) = .next t ∧ _)
  rcases handleSendPtDesc_cases s with ⟨hle, h⟩ | ⟨hlt, h⟩ <;> rw [h]
  · rw [hn, ← BitVec.not_lt] at hle
    refine ⟨fun _ => ?_, fun hlt => absurd hlt hle, fun hlt => absurd hlt hle⟩
    exact stepped_of_nextFree (drive_abort (g := .buildSch) rfl (.refl s.nextFree))
  · rw [hn] at hlt
    refine ⟨fun hle => absurd hlt (BitVec.not_lt.2 hle), fun _ hmax => ?_, fun _ hmax => ?_⟩
    · exact stepped_of_nextFree (drive_countedSend_exhausted (s := s.nextFree) _ hmax)
    · exact stepped_of_nextFree (drive_countedSend_sent (s := s.nextFree) (g := .waitPtDescAns) _ rfl hmax)

/-- Settles O35: the cursor is tested before the attempt is counted. -/
theorem sendPtValAsksForTheDuePoint : Obligations.SendPtValAsksForTheDuePoint := by
  intro s
  refine ⟨fun hend => ?_, fun i hi => ?_⟩
  · have h : handleSendPtVal s = .abort s := by rw [handleSendPtVal, List.getElem?_eq_none hend]
    have hstep := drive_abort (f := .sendPtVal) (g := .runSch) rfl (.refl s)
    rwa [← h] at hstep
  · have h : handleSendPtVal s = countedSend s (s.cfg.addrs.readPointDataBase + i) := by rw [handleSendPtVal, hi]
    change (_ → ∃ t, drive .sendPtVal (handleSendPtVal s) = .next t ∧ _) ∧
      (_ → ∃ t, drive .sendPtVal (handleSendPtVal s) = .next t ∧ _)
    rw [h]
    exact ⟨drive_countedSend_exhausted _, drive_countedSend_sent (g := .waitPtValAns) _ rfl⟩

/-! ### Discovery (43_poller_fsm.md R295) -/

/-- The address of a descriptor answers with a descriptor. -/
theorem State.answer_pointDesc {s : State} {buf : Frame} {i : BitVec 8} {f : RspFields}
    (hp : s.cfg.toProtocol.ok = true) (hi : i.toNat < s.cfg.maxPoints)
    (h : s.answer buf = .ok ⟨s.cfg.addrs.pointDescBase + i, s.cfg.status.ok, f⟩) : ∃ d, f = .desc d := by
  obtain ⟨-, -, -, -, -, -, -, haddrs⟩ := (Protocol.ok_iff _).1 hp
  have hfit := s.fieldsFit_answer h
  simp only [fieldsFit, classify_pointDescBase_add haddrs hi] at hfit
  obtain ⟨d, hd, -⟩ := hfit
  exact ⟨d, hd⟩

/-- A descriptor is the answer of a descriptor's address only, so its index is below `MAX_POINTS`. -/
theorem State.index_of_desc {s : State} {buf : Frame} {a : Byte} {d : PointDesc}
    (h : s.answer buf = .ok ⟨a, s.cfg.status.ok, .desc d⟩) :
    ∃ i : BitVec 8, i.toNat < s.cfg.maxPoints ∧ a = s.cfg.addrs.pointDescBase + i := by
  have hfit := s.fieldsFit_answer h
  rcases classify_cases s.cfg.toProtocol a with
    ⟨i, -, hi, ha⟩ | ⟨i, hc, -⟩ | ⟨i, hc, -⟩ | ⟨r, hc, -⟩ | ⟨hc, -⟩
  · exact ⟨i, hi, ha⟩
  · simp [fieldsFit, hc] at hfit
  · simp [fieldsFit, hc] at hfit
  · cases r <;> simp [fieldsFit, hc] at hfit
  · simp [fieldsFit, hc] at hfit

/-- Settles O32: the judgement stores whatever descriptor it reads at the address asked for. -/
theorem procPtDescStoresTheDescriptor : Obligations.ProcPtDescStoresTheDescriptor := by
  intro s buf hbuf
  rcases judgePtDesc_cases (s.answer buf) s.crcIdle with ⟨f, hf, h⟩ | ⟨hne, h⟩
  · have same {f' : RspFields}
        (hf' : s.answer buf = .ok ⟨s.cfg.addrs.pointDescBase + s.poller.ptCount, s.cfg.status.ok, f'⟩) : f' = f := by
      cases hf.symm.trans hf'; rfl
    have stored : ∃ t, exec .fsmProcPtDesc s = .next t ∧
        PollerStepped s t ((s.poller.addPoint (s.descIn f)).goto 7) [] := by
      rw [State.crcIdle_descIn] at h
      exact process_stepped (f := .procPtDesc) (g := .sendPtDesc) hbuf h rfl
        (PollerStepped.withPoller s.crcIdle.nextFree _).of_nextFree
    refine ⟨fun d hd => ?_, fun f' hf' hshape => ⟨fun hp => ?_, ?_⟩, fun hne => absurd hf (hne f)⟩
    · cases same hd
      obtain ⟨t, ht, hs⟩ := stored
      obtain ⟨i, hi, ha⟩ := s.index_of_desc hd
      exact ⟨t, ht, hs, add_left_cancel ha ▸ hi⟩
    · by_contra hlt
      obtain ⟨d, hd⟩ := State.answer_pointDesc hp (Nat.not_le.1 hlt) hf'
      exact hshape d hd
    · cases same hf'
      rw [State.descIn_of_ne hshape] at stored
      exact stored
  · exact ⟨fun d hd => absurd hd (hne _), fun f hf => absurd hf (hne f),
      fun _ => process_stepped (f := .procPtDesc) (g := .sendPtDesc) hbuf h rfl (.refl _)⟩

/-! ### The schedule (43_poller_fsm.md R300, R302; 44_scheduler.md) -/

theorem isScheduled_iff {b : AccessBits} {d : PointDesc} :
    isScheduled b d = true ↔ d.accessRights &&& b.read ≠ 0 ∧ d.samplingTime ≠ 0 := by
  simp [isScheduled, includesRead]

/-- The schedule of the points `i .. i+n-1` is what its selection leaves of that range (44_scheduler.md R320). -/
theorem scheduleFrom_range' (b : AccessBits) (desc : Nat → PointDesc) (i n : Nat) :
    scheduleFrom b i ((List.range' i n).map desc) =
      (List.range' i n).filterMap fun k =>
        if isScheduled b (desc k) then some (schedEntryOf k (desc k)) else none := by
  induction n generalizing i with
  | zero => rfl
  | succ n ih =>
    rw [List.range'_succ, List.map_cons, scheduleFrom, ih, List.filterMap_cons]
    split <;> rfl

theorem State.buildSchedule_eq (s : State) :
    s.buildSchedule = (List.range s.poller.ptCount.toNat).filterMap fun k =>
      if (s.descAt k).accessRights &&& s.cfg.access.read ≠ 0 ∧ (s.descAt k).samplingTime ≠ 0 then
        some (schedEntryOf k (s.descAt k)) else none := by
  rw [buildSchedule, List.range_eq_range', scheduleFrom_range']
  simp only [isScheduled_iff]

/-- Settles O33: the handler writes the schedule built, which is the selection of the statement. -/
theorem buildSchSelectsReadableSampledPoints : Obligations.BuildSchSelectsReadableSampledPoints := by
  intro s
  obtain ⟨t, ht, hs⟩ := drive_ok (f := .buildSch) (g := .runSch) rfl
    (PollerStepped.withPoller s.nextFree (s.poller.setSchedule s.buildSchedule)).of_nextFree
  rw [s.buildSchedule_eq] at hs
  exact ⟨t, ht, hs⟩

theorem SchedEntry.isDue_iff (e : SchedEntry) : e.isDue = true ↔ e.countdown = 1 := beq_iff_eq.trans sub_eq_zero

theorem SchedEntry.tick_eq (e : SchedEntry) :
    e.tick = if e.countdown = 1 then { e with countdown := e.interval }
      else { e with countdown := e.countdown - 1 } := by
  simp only [tick, sub_eq_zero]

/-- The due list selects in schedule order (44_scheduler.md R322). -/
theorem scheduleDue_eq (sch : List SchedEntry) :
    scheduleDue sch = sch.filterMap fun e => if e.countdown = 1 then some e.idx else none := by
  rw [scheduleDue, ← List.filterMap_eq_map, List.filterMap_filter]
  simp only [SchedEntry.isDue_iff, Function.comp_apply]

/-- Settles O34: a round is started where the due list is not empty. -/
theorem runSchCollectsTheDuePoints : Obligations.RunSchCollectsTheDuePoints := by
  intro s due sched
  have hdue : scheduleDue s.poller.sched = due := scheduleDue_eq _
  have hsched : scheduleTick s.poller.sched = sched := List.map_congr_left fun e _ => e.tick_eq
  change (_ → ∃ t, drive .runSch (handleRunSch s) = .next t ∧ _) ∧
    (_ → ∃ t, drive .runSch (handleRunSch s) = .next t ∧ _)
  simp only [handleRunSch, hdue, hsched, Poller.setDue_due]
  refine ⟨fun hne => ?_, fun hempty => ?_⟩
  · rw [if_pos hne]
    exact drive_abort (g := .sendPtVal) (p := (s.poller.setDue sched due).startRound) rfl (.withPoller s _)
  · rw [if_neg (not_not.2 hempty), hempty]
    exact drive_waitOk (p := s.poller.setDue sched []) (.withPoller s _)

/-! ### Acquisition (43_poller_fsm.md R311) -/

section
variable {i : BitVec 8} {r : Response} {s : State}

theorem judgePtVal_mismatch (ha : r.addr ≠ s.cfg.addrs.readPointDataBase + i) :
    judgePtVal i (.ok r) s = .ok (s.withPoller s.poller.advance) := if_pos ha

variable (ha : r.addr = s.cfg.addrs.readPointDataBase + i)
include ha

theorem judgePtVal_refused (hs : r.status ≠ s.cfg.status.ok) : judgePtVal i (.ok r) s = .ok s :=
  (if_neg (not_not.2 ha)).trans (if_pos hs)

theorem judgePtVal_matched (hs : r.status = s.cfg.status.ok) :
    judgePtVal i (.ok r) s = .ok (s.withPoller
      ((s.poller.setValue i.toNat (s.valueIn r.fields)).clearRetries.advance)) :=
  (if_neg (not_not.2 ha)).trans (if_neg (not_not.2 hs))

end

/-- The value stored at a discovered point replaces that point's entry. -/
theorem Poller.setValue_entry {p : Poller} {k : Nat} {e : PointEntry} (x : Value)
    (h : p.ptTable[k]? = some (some e)) :
    p.setValue k x = { p with ptTable := p.ptTable.set k (some ⟨e.desc, some x⟩) } := by
  rw [setValue, h]

/-- Past the end of the point table nothing is stored. -/
theorem Poller.setValue_outside {p : Poller} {k : Nat} (x : Value) (h : p.ptTable.length ≤ k) :
    p.setValue k x = p := by
  rw [setValue, List.getElem?_eq_none h]

/-- The poller knows the datatype of the points it holds an entry for, and of no other (41_codec.md R201). -/
theorem State.entry_of_dtOf {s : State} {k : Nat} {dt : Datatype} (h : s.pollerView.dtOf k = some dt) :
    ∃ e, s.poller.ptTable[k]? = some (some e) := by
  rw [PointView.dtOf] at h
  split at h
  · cases he : s.poller.ptTable[k]? with
    | none => simp [pollerView, he] at h
    | some e =>
      cases e with
      | none => simp [pollerView, he] at h
      | some e => exact ⟨e, rfl⟩
  · cases h

/-- An OK answer for point `i` carries a value, and only where the poller holds an entry for the point. -/
theorem State.answer_readPoint {s : State} {buf : Frame} {i : BitVec 8} {r : Response}
    (hp : s.cfg.toProtocol.ok = true) (hi : i.toNat < s.cfg.maxPoints) (h : s.answer buf = .ok r)
    (ha : r.addr = s.cfg.addrs.readPointDataBase + i) (hs : r.status = s.cfg.status.ok) :
    ∃ x e, r.fields = .value x ∧ s.poller.ptTable[i.toNat]? = some (some e) := by
  obtain ⟨-, -, -, -, -, -, -, haddrs⟩ := (Protocol.ok_iff _).1 hp
  rcases unpackResponse_ok h with ⟨hne, -⟩ | ⟨-, hfit⟩
  · exact absurd hs hne
  · rw [ha] at hfit
    simp only [fieldsFit, classify_readPointDataBase_add haddrs hi] at hfit
    obtain ⟨x, hx, hdt, -⟩ := hfit
    obtain ⟨e, he⟩ := s.entry_of_dtOf hdt
    exact ⟨x, e, hx, he⟩

/-- PROC_PT_VAL judges the answer for the due point and goes back to SEND_PT_VAL. -/
theorem procPtVal_stepped {s u : State} {buf : Frame} {i : BitVec 8} {r : Except CodecError Response} {p : Poller}
    (hbuf : s.pollerFrame = some buf) (hi : s.dueIndex = i) (hr : s.answer buf = r)
    (hj : judgePtVal i r s.crcIdle.nextFree = .ok u) (hs : PollerStepped s.crcIdle.nextFree u p []) :
    ∃ t, exec .fsmProcPtVal s = .next t ∧ PollerStepped s t (p.goto 12) [] := by
  subst hi hr
  exact process_stepped (f := .procPtVal) (g := .sendPtVal) hbuf hj rfl hs.of_nextFree

/-- Settles O36: an answer for point `i` carries a value, and only where the poller holds that point's entry. -/
theorem procPtValStoresTheMatchedValue : Obligations.ProcPtValStoresTheMatchedValue := by
  intro s buf i hbuf hsome hnone
  have hi : s.dueIndex = i := by
    cases hd : s.poller.due[s.poller.cursor.toNat]? with
    | some j => rw [State.dueIndex_some hd, hsome j hd]
    | none => rw [State.dueIndex_none hd, hnone hd]
  refine ⟨fun e he => ?_, fun r hr ha => ?_, fun r hr ha hst => ?_, fun r hr ha hst hp hlt => ?_,
    fun r hr ha hst hle hlen => ?_⟩
  · exact procPtVal_stepped hbuf hi he rfl (.refl _)
  · exact procPtVal_stepped hbuf hi hr (judgePtVal_mismatch ha) (.withPoller _ _)
  · exact procPtVal_stepped hbuf hi hr (judgePtVal_refused ha hst) (.refl _)
  · obtain ⟨x, e, hx, he⟩ := s.answer_readPoint hp hlt (r := r) hr ha hst
    obtain ⟨t, ht, hs⟩ := procPtVal_stepped hbuf hi hr (judgePtVal_matched ha hst) (.withPoller _ _)
    refine ⟨t, x, e, hx, he, ht, ?_⟩
    rw [hx, State.valueIn_value, State.nextFree_poller, State.crcIdle_poller, Poller.setValue_entry x he] at hs
    exact hs
  · obtain ⟨t, ht, hs⟩ := procPtVal_stepped hbuf hi hr (judgePtVal_matched ha hst) (.withPoller _ _)
    rw [State.nextFree_poller, State.crcIdle_poller, Poller.setValue_outside _ (hlen.trans_le hle)] at hs
    exact ⟨t, ht, hs⟩

end Sys2Proof.Machine
end

section
/-!
How long the poller waits and how often it asks (43_poller_fsm.md R315 to R317): the ticks of a wait state on which
nothing is received, the attempts of one request, and the wait among arbitrary bytes and silences of the link.
-/

namespace Sys2Proof.Machine

/-! ### Runs -/

theorem run_succ {s t : State} (h : step s = .next t) (n : Nat) : run (n + 1) s = run n t := by
  rw [run, h]

theorem run_add {m : Nat} {s t : State} (h : run m s = .next t) (n : Nat) : run (m + n) s = run n t := by
  induction m generalizing s with
  | zero => cases h; rw [Nat.zero_add]
  | succ m ih =>
    rw [run] at h
    split at h
    · rename_i u hu
      rw [Nat.add_right_comm, run_succ hu, ih h]
    · cases h
    · cases h

theorem run_cfg {n : Nat} {s t : State} (h : run n s = .next t) : t.cfg = s.cfg := by
  induction n generalizing s with
  | zero => cases h; rfl
  | succ n ih =>
    rw [run] at h
    split at h
    · rename_i u hu
      exact (ih h).trans (step_cfg hu)
    · cases h
    · cases h

theorem FsmState.code_ne_15 (f : FsmState) : f.code ≠ 15 := by cases f <;> decide

/-- A step that takes a tick drives the handler of the state whose code the state register holds. -/
theorem step_tick {s : State} {f : FsmState} {es : List Event} (hc : s.cfg.ok = true) (hs : s.poller.state = f.code)
    (he : s.events = .tick :: es) : step s = driveOrFault f (f.handler (s.withEvents es)) := by
  rw [step_event hc (hs ▸ f.code_ne_15) he]
  exact onTick_of_code (s := s.withEvents es) hs

/-! ### Waiting with nothing received (43_poller_fsm.md R276, R315) -/

theorem FsmState.handler_wait {f : FsmState} (hf : f ∈ waitStates) (s : State) : f.handler s = .ok (waitAns s) := by
  simp only [waitStates, List.mem_cons, List.not_mem_nil, or_false] at hf
  rcases hf with rfl | rfl | rfl | rfl <;> rfl

/-- The poller's registers after `n` ticks that were only counted. -/
def Poller.countTicks (p : Poller) (n : Nat) : Poller := { p with tickCnt := p.tickCnt + BitVec.ofNat 32 n }

theorem Poller.countTicks_zero (p : Poller) : p.countTicks 0 = p := by
  cases p; simp [countTicks]

theorem Poller.countTicks_countTick (p : Poller) (n : Nat) : (p.countTicks n).countTick = p.countTicks (n + 1) := by
  rw [countTicks, countTicks, BitVec.ofNat_add, ← add_assoc]
  rfl

theorem Poller.countTick_countTicks (p : Poller) (n : Nat) : p.countTick.countTicks n = p.countTicks (n + 1) := by
  rw [← countTicks_countTick]
  simp only [countTicks, countTick, add_right_comm]

/-- Going to the state one is in. -/
theorem Poller.goto_self {p : Poller} {c : BitVec 4} (h : p.state = c) : p.goto c = p := by
  cases p; cases h; rfl

section
variable {s : State} {f : FsmState} {es : List Event} (hf : f ∈ waitStates) (hc : s.cfg.ok = true)
  (hs : s.poller.state = f.code) (hframe : s.poller.frameArrived = false)
include hf hc hs hframe

/-- A tick before the timeout is counted. -/
theorem step_waiting (he : s.events = .tick :: es) (ht : s.poller.tickCnt + 1 ≤ s.poller.timeoutTicks) :
    step s = .next ((s.withEvents es).withPoller s.poller.countTick) := by
  rw [step_tick hc hs he, f.handler_wait hf, waitAns_counting (s := s.withEvents es) hframe ht]
  exact congrArg (fun p => Host.Outcome.next ((s.withEvents es).withPoller p))
    (Poller.goto_self (p := s.poller.countTick) hs)

/-- The tick past the timeout, with nothing received, goes back to the state that asks. -/
theorem step_timeout {g : FsmState} (habort : (fsmRow f).abort = .used g) (he : s.events = .tick :: es)
    (ht : s.poller.timeoutTicks < s.poller.tickCnt + 1) (hrx : s.poller.rxCount = 0) :
    step s = .next ((s.withEvents es).withPoller (s.poller.countTick.goto g.code)) := by
  rw [step_tick hc hs he, f.handler_wait hf, waitAns_timeout (s := s.withEvents es) hframe ht hrx]
  exact drive_of_target (h := ⟨_, .waitAbort, _⟩) habort

end

/-- Ticks up to the timeout, with nothing received, are counted one by one. -/
theorem run_waiting {f : FsmState} (hf : f ∈ waitStates) {es : List Event} (n : Nat) (s : State)
    (hc : s.cfg.ok = true) (hs : s.poller.state = f.code) (hframe : s.poller.frameArrived = false)
    (ht : s.poller.tickCnt.toNat + n ≤ s.poller.timeoutTicks.toNat) (he : s.events = List.replicate n .tick ++ es) :
    run n s = .next ((s.withEvents es).withPoller (s.poller.countTicks n)) := by
  induction n generalizing s with
  | zero =>
    have hs : s = (s.withEvents es).withPoller s.poller := by cases s; cases he; rfl
    rw [Poller.countTicks_zero, ← hs]
    rfl
  | succ n ih =>
    have hcount : (s.poller.tickCnt + 1).toNat = s.poller.tickCnt.toNat + 1 := by bv_omega
    have hle : s.poller.tickCnt + 1 ≤ s.poller.timeoutTicks := by bv_omega
    rw [run_succ (step_waiting hf hc hs hframe he hle), ← Poller.countTick_countTicks]
    exact ih _ hc hs hframe (by simp only [State.withPoller_poller, Poller.countTick_tickCnt,
      Poller.countTick_timeoutTicks, hcount]; omega) rfl

/-! ### One attempt (43_poller_fsm.md R274, R315) -/

/-- The states that transmit. -/
def sendStates : List FsmState := [.sendItfVer, .sendBrdId, .sendPtDesc, .sendPtVal]

/-- A pair of the statement is a state that transmits with the wait state after it, which goes back to it. -/
theorem exists_of_mem_sendWaitPairs {sw : BitVec 4 × BitVec 4} (h : sw ∈ sendWaitPairs) :
    ∃ f ∈ sendStates, ∃ w ∈ waitStates, sw = (f.code, w.code) ∧ (fsmRow f).next = .used w ∧
      (fsmRow w).abort = .used f := by
  simp only [sendWaitPairs, List.mem_cons, List.not_mem_nil, or_false] at h
  rcases h with rfl | rfl | rfl | rfl
  · exact ⟨.sendItfVer, by decide, .waitItfVerAns, by decide, rfl, rfl, rfl⟩
  · exact ⟨.sendBrdId, by decide, .waitBrdIdAns, by decide, rfl, rfl, rfl⟩
  · exact ⟨.sendPtDesc, by decide, .waitPtDescAns, by decide, rfl, rfl, rfl⟩
  · exact ⟨.sendPtVal, by decide, .waitPtValAns, by decide, rfl, rfl, rfl⟩

theorem countedSend_armed {s : State} {a : Byte} (h : (countedSend s a).result = .ok) :
    ∃ q : Poller, (countedSend s a).state.poller = q.arm (BitVec.ofNat 32 s.cfg.timeoutTicks) := by
  rcases countedSend_cases s a with ⟨-, hs⟩ | ⟨-, hs⟩
  · rw [hs] at h; cases h
  · rw [hs]; exact ⟨_, rfl⟩

/-- A handler of a state that transmits ends with OK only after it has armed the timeout (43_poller_fsm.md R274). -/
theorem FsmState.handler_armed {f : FsmState} {s : State} {h : Handled} (hf : f ∈ sendStates)
    (hh : f.handler s = .ok h) (hok : h.result = .ok) :
    ∃ q : Poller, h.state.poller = q.arm (BitVec.ofNat 32 s.cfg.timeoutTicks) := by
  simp only [sendStates, List.mem_cons, List.not_mem_nil, or_false] at hf
  rcases hf with rfl | rfl | rfl | rfl <;> cases hh
  · exact ⟨s.poller, rfl⟩
  · exact ⟨s.poller, rfl⟩
  · rcases handleSendPtDesc_cases s with ⟨-, h⟩ | ⟨-, h⟩ <;> rw [h] at hok ⊢
    · cases hok
    · exact countedSend_armed (s := s.nextFree) hok
  · simp only [handleSendPtVal] at hok ⊢
    split at hok
    · cases hok
    · exact countedSend_armed hok

/-- A state that transmits goes to its wait state by the result OK only. -/
theorem FsmState.result_ok_of_target {f : FsmState} (hf : f ∈ sendStates) {r : HandlerResult} (hr : r ∈ f.results)
    (ht : f.target r = (fsmRow f).next) : r = .ok := by
  have rows : ∀ f ∈ sendStates, ∀ r ∈ f.results, f.target r = (fsmRow f).next → r = .ok := by decide
  exact rows f hf r hr ht

/-- A tick of a state that transmits which leads to its wait state has armed the timeout. -/
theorem step_armed {s t : State} {f w : FsmState} {es : List Event} (hf : f ∈ sendStates)
    (hw : (fsmRow f).next = .used w) (hs : s.poller.state = f.code) (he : s.events = .tick :: es)
    (ht : step s = .next t) (hwait : t.poller.state = w.code) :
    (∃ q : Poller, t.poller = (q.arm (BitVec.ofNat 32 s.cfg.timeoutTicks)).goto w.code) ∧
      t.responder = s.responder ∧ t.events = es := by
  obtain ⟨hc, hlegal, -⟩ := step_next ht
  rw [step_event hc hlegal he] at ht
  have hpolled := onTick_polled ht
  obtain ⟨f', h, g, hf', hh, hg, rfl⟩ := onTick_handler ht
  cases FsmState.code_injective (hs.symm.trans hf')
  cases FsmState.code_injective (f := g) hwait
  have hok := FsmState.result_ok_of_target hf (FsmState.handler_result hh) (hg.trans hw.symm)
  obtain ⟨q, hq⟩ := FsmState.handler_armed hf hh hok
  exact ⟨⟨q, by rw [State.withPoller_poller, hq]; rfl⟩, hpolled.responder, hpolled.events⟩

/-- Settles O39: the timeout is armed at 0, counts to T, and runs out on the next tick. -/
theorem unansweredAttemptTakesTimeoutTicks : Obligations.UnansweredAttemptTakesTimeoutTicks := by
  intro s s' es sw hsw hc hs hstep hs' he
  obtain ⟨f, hf, w, hw, rfl, hnext, habort⟩ := exists_of_mem_sendWaitPairs hsw
  rw [List.replicate_succ, List.cons_append] at he
  obtain ⟨⟨q, hq⟩, hresp, hev⟩ := step_armed hf hnext hs he hstep hs'
  have hcfg := step_cfg hstep
  have hc' : s'.cfg.ok = true := hcfg ▸ hc
  have hT := Config.toNat_timeoutTicks hc
  obtain ⟨-, -, -, -, hlt, -⟩ := (Config.ok_iff _).1 hc
  have hcnt : s'.poller.tickCnt = 0 := by rw [hq]; rfl
  have htime : s'.poller.timeoutTicks = BitVec.ofNat 32 s.cfg.timeoutTicks := by rw [hq]; rfl
  have hframe : s'.poller.frameArrived = false := by rw [hq]; rfl
  have hrx : s'.poller.rxCount = 0 := by rw [hq]; rfl
  have waiting {n : Nat} (hn : n ≤ s.cfg.timeoutTicks) : run (n + 1) s =
      .next ((s'.withEvents (List.replicate (s.cfg.timeoutTicks + 1 - n) .tick ++ es)).withPoller
        (s'.poller.countTicks n)) := by
    rw [run_succ hstep]
    refine run_waiting hw n s' hc' hs' hframe ?_ ?_
    · rw [hcnt, htime, hT]
      simpa using hn
    · rw [hev, ← List.append_assoc, List.replicate_append_replicate, Nat.add_sub_cancel' (by omega)]
  refine ⟨fun n hpos hn => ?_, ?_⟩
  · obtain ⟨m, rfl⟩ := Nat.exists_eq_add_of_le' hpos
    refine ⟨_, waiting (by omega), hs', ?_⟩
    have hm : (s'.poller.tickCnt + BitVec.ofNat 32 m).toNat = m := by
      rw [hcnt, BitVec.ofNat_eq_ofNat, BitVec.zero_add, BitVec.toNat_ofNat, Nat.mod_eq_of_lt (by omega)]
    exact hm
  · have hlast := waiting le_rfl
    rw [Nat.add_sub_cancel_left] at hlast
    have hexpired : (s'.poller.countTicks s.cfg.timeoutTicks).timeoutTicks <
        (s'.poller.countTicks s.cfg.timeoutTicks).tickCnt + 1 := by
      simp only [Poller.countTicks, hcnt, htime]
      bv_omega
    have hback := step_timeout (s := (s'.withEvents (.tick :: es)).withPoller (s'.poller.countTicks s.cfg.timeoutTicks))
      hw hc' hs' hframe habort rfl hexpired hrx
    refine ⟨_, (run_add hlast 1).trans (run_succ hback 0), ?_, rfl, hresp, rfl⟩
    have htick : s'.poller.tickCnt + BitVec.ofNat 32 (s.cfg.timeoutTicks + 1) =
        BitVec.ofNat 32 (s.cfg.timeoutTicks + 1) := by
      rw [hcnt]; exact BitVec.zero_add _
    rw [State.withPoller_poller, State.withPoller_poller, Poller.countTicks_countTick, Poller.countTicks, htick]
    rfl

/-! ### The attempts of one request (43_poller_fsm.md R292, R306, R316) -/

/-- The poller is about to ask for a descriptor or for a value, with a request to the address `a`. -/
def Poller.Asks (c : Config) (p : Poller) (a : Byte) : Prop :=
  (p.state = 7 ∧ a = c.addrs.pointDescBase + p.ptCount ∧ ∃ b, p.brd = some b ∧ p.ptCount < b.numOfPoints) ∨
    (p.state = 12 ∧ ∃ i, p.due[p.cursor.toNat]? = some i ∧ a = c.addrs.readPointDataBase + i)

/-- The poller is about to ask for the same thing again: it has only counted the attempt and waited. -/
def Poller.retried (p : Poller) (c : Config) : Poller :=
  { p.countRetry.arm (BitVec.ofNat 32 c.timeoutTicks) with tickCnt := BitVec.ofNat 32 (c.timeoutTicks + 1) }

theorem Poller.Asks.retried {c : Config} {p : Poller} {a : Byte} (h : p.Asks c a) : (p.retried c).Asks c a := h

/-- Both requests are counted, and sent to `a` unless the attempts are exhausted. -/
theorem Poller.Asks.exec {s : State} {a : Byte} (h : s.poller.Asks s.cfg a) :
    ∃ i, decodeState s.poller.state = some i ∧ ∃ sw ∈ sendWaitPairs, s.poller.state = sw.1 ∧
      (s.cfg.maxRetries < (s.poller.retries + 1).toNat → ∃ t, Machine.exec i s = .next t ∧
        PollerStepped s t (s.poller.countRetry.goto 0) []) ∧
      ((s.poller.retries + 1).toNat ≤ s.cfg.maxRetries → ∃ t, Machine.exec i s = .next t ∧
        PollerStepped s t ((s.poller.countRetry.arm (BitVec.ofNat 32 s.cfg.timeoutTicks)).goto sw.2)
          [sealFrame s.cfg.crc [0x02, a]]) := by
  rcases h with ⟨hs, rfl, b, hb, hlt⟩ | ⟨hs, i, hi, rfl⟩
  · obtain ⟨-, hexh, hsent⟩ := sendPtDescAsksForTheNextDescriptor s b.numOfPoints
      (fun b' hb' => by cases hb.symm.trans hb'; rfl) (fun hnone => by cases hb.symm.trans hnone)
    exact ⟨.fsmSendPtDesc, by rw [hs]; rfl, (7, 8), by decide, hs, hexh hlt, hsent hlt⟩
  · obtain ⟨-, hsend⟩ := sendPtValAsksForTheDuePoint s
    obtain ⟨hexh, hsent⟩ := hsend i hi
    exact ⟨.fsmSendPtVal, by rw [hs]; rfl, (12, 13), by decide, hs, hexh, hsent⟩

section
variable {s : State} {a : Byte} {es : List Event} (h : s.poller.Asks s.cfg a) (hc : s.cfg.ok = true)
include h hc

/-- One unanswered attempt takes T + 2 ticks, transmits one request and changes nothing but what counts the
attempt. -/
theorem Poller.Asks.attempt (hle : (s.poller.retries + 1).toNat ≤ s.cfg.maxRetries)
    (he : s.events = List.replicate (s.cfg.timeoutTicks + 2) .tick ++ es) :
    ∃ t, run (s.cfg.timeoutTicks + 2) s = .next t ∧ t.cfg = s.cfg ∧ t.poller = s.poller.retried s.cfg ∧
      t.pTx = s.pTx ++ [sealFrame s.cfg.crc [0x02, a]] ∧ t.responder = s.responder ∧ t.events = es := by
  have he' := he
  rw [List.replicate_succ, List.cons_append] at he'
  obtain ⟨i, hi, sw, hsw, hs, -, hsent⟩ :=
    Asks.exec (s := s.withEvents (List.replicate (s.cfg.timeoutTicks + 1) .tick ++ es)) h
  obtain ⟨s', hs', hstepped⟩ := hsent hle
  have hstep : step s = .next s' := (step_tick_exec hc he' hi).trans hs'
  obtain ⟨-, t, ht, hp, hpTx, hresp, hev⟩ :=
    unansweredAttemptTakesTimeoutTicks s s' es sw hsw hc hs hstep (by rw [hstepped.poller]; rfl) he
  refine ⟨t, ht, run_cfg ht, ?_, hpTx.trans hstepped.pTx, hresp, hev⟩
  rw [hp, hstepped.poller, ← hs]
  rfl

/-- The attempt one too many transmits nothing and resets the session. -/
theorem Poller.Asks.exhausted (hlt : s.cfg.maxRetries < (s.poller.retries + 1).toNat)
    (he : s.events = .tick :: es) :
    ∃ t, step s = .next t ∧ t.poller = s.poller.countRetry.goto 0 ∧ t.pTx = s.pTx ∧
      t.responder = s.responder ∧ t.events = es := by
  obtain ⟨i, hi, sw, -, -, hexh, -⟩ := Asks.exec (s := s.withEvents es) h
  obtain ⟨t, ht, hstepped⟩ := hexh hlt
  exact ⟨t, (step_tick_exec hc he hi).trans ht, hstepped.poller, hstepped.pTx.trans (List.append_nil _),
    hstepped.responder, hstepped.events⟩

end

/-- With `k` attempts left, `k` requests are transmitted, and the attempt after them resets the session. -/
theorem Poller.Asks.run_attempts {c : Config} (hc : c.ok = true) {a : Byte} {es : List Event} (k : Nat) (s : State)
    (hcfg : s.cfg = c) (h : s.poller.Asks c a) (hk : s.poller.retries.toNat + k = c.maxRetries)
    (he : s.events = List.replicate (k * (c.timeoutTicks + 2) + 1) .tick ++ es) :
    ∃ t, run (k * (c.timeoutTicks + 2) + 1) s = .next t ∧ t.poller.state = 0 ∧
      t.poller.retries.toNat = c.maxRetries + 1 ∧
      t.pTx = s.pTx ++ List.replicate k (sealFrame c.crc [0x02, a]) ∧
      t.responder = s.responder ∧ t.events = es := by
  obtain ⟨-, -, -, -, -, hmax, -⟩ := (Config.ok_iff _).1 hc
  have counted (s : State) (hs : s.poller.retries.toNat ≤ c.maxRetries) :
      (s.poller.retries + 1).toNat = s.poller.retries.toNat + 1 := by bv_omega
  induction k generalizing s with
  | zero =>
    subst hcfg
    have hcount := counted s (by omega)
    rw [Nat.zero_mul] at he ⊢
    obtain ⟨t, ht, hp, hpTx, hresp, hev⟩ := h.exhausted hc (by omega) he
    refine ⟨t, run_succ ht 0, by rw [hp]; rfl, ?_, hpTx.trans (List.append_nil _).symm, hresp, hev⟩
    rw [hp]
    exact hcount.trans (by omega)
  | succ k ih =>
    subst hcfg
    have hcount := counted s (by omega)
    have hticks : (k + 1) * (s.cfg.timeoutTicks + 2) + 1 =
        (s.cfg.timeoutTicks + 2) + (k * (s.cfg.timeoutTicks + 2) + 1) := by ring
    rw [hticks, List.replicate_add, List.append_assoc] at he
    obtain ⟨u, hu, hcfg, hp, hpTx, hresp, hev⟩ := h.attempt hc (by omega) he
    have hretries : u.poller.retries.toNat = s.poller.retries.toNat + 1 := by rw [hp]; exact hcount
    obtain ⟨t, ht, hstate, hret, hpTx', hresp', hev'⟩ := ih u hcfg (hp ▸ h.retried) (by omega) hev
    refine ⟨t, hticks ▸ (run_add hu _).trans ht, hstate, hret, ?_, hresp'.trans hresp, hev'⟩
    rw [hpTx', hpTx, List.append_assoc]
    rfl

/-- Settles O40: all of the MAX_RETRIES attempts are left at the start. -/
theorem unansweredRequestResetsTheSession : Obligations.UnansweredRequestResetsTheSession := by
  intro s es a hc hr hask he
  have h : s.poller.Asks s.cfg a := hask.imp_right fun ⟨hs, i, hi, ha⟩ => ⟨hs, i, hi, ha⟩
  exact h.run_attempts hc _ s rfl (by rw [hr]; exact Nat.zero_add _) he

/-! ### Decoded requests are well formed (41_codec.md R210, R214, R215) -/

section
variable {p : Protocol} {v : PointView} {a : Byte}

/-- An unmapped address is the operand of the request of its row. -/
theorem wf_unmappedRequest (hc : classify p a = .unmapped) : (unmappedRequest a).wf p v = true := by
  have ha := requestAddr_unmappedRequest p.addrs a
  rw [unmappedRequest] at ha ⊢
  cases hr : UnmappedRow.ofAddr a <;> simp only [hr, requestAddr, Option.some.injEq] at ha ⊢
  case lo0B => simp only [Instr.wf, UnmappedRow.addr0B, ha, hc, beq_self_eq_true]
  case lo0C => simp only [Instr.wf, UnmappedRow.addr0C_eq, ha, hc, beq_self_eq_true]
  case lo10 => simp only [Instr.wf, UnmappedRow.addr10_eq, ha, hc, beq_self_eq_true]
  case hi => simp only [Instr.wf, hc, hr, beq_self_eq_true, Bool.and_self]

theorem wf_of_validRequest {pl : List Byte} {i : Instr} (h : validRequest p v a pl = .ok i) : i.wf p v = true := by
  rw [validRequest] at h
  rcases classify_cases p a with ⟨k, hc, hk, -⟩ | ⟨k, hc, hk, -⟩ | ⟨k, hc, hk, -⟩ | ⟨r, hc, -⟩ | ⟨hc, -⟩ <;>
    simp only [hc] at h
  · split at h <;> cases h
    exact decide_eq_true hk
  · split at h <;> cases h
    exact decide_eq_true hk
  · split at h
    · cases h
    · rename_i dt hdt
      split at h <;> cases h
      rename_i hl
      have hfits := Value.fits_ofBytes (p := p) (dt := dt) (not_not.1 hl)
      exact Bool.and_eq_true_iff.2 ⟨Bool.and_eq_true_iff.2 ⟨decide_eq_true hk, beq_iff_eq.2 hdt⟩, hfits⟩
  · split at h <;> cases h
    rename_i hl
    cases r
    case dspWrite => exact beq_iff_eq.2 (not_not.1 hl)
    all_goals rfl
  · cases h

theorem wf_of_invalidRequest {i : Instr} (hv : validAddr p v.count a = false) (h : invalidRequest p a = .ok i) :
    i.wf p v = true := by
  rw [invalidRequest] at h
  rcases classify_cases p a with ⟨k, hc, hk, -⟩ | ⟨k, hc, hk, -⟩ | ⟨k, hc, hk, -⟩ | ⟨r, hc, -⟩ | ⟨hc, -⟩ <;>
    simp only [hc] at h <;> cases h
  · exact decide_eq_true hk
  · exact decide_eq_true hk
  · rw [validAddr_point (.inr (.inr hc))] at hv
    simp only [Instr.wf, hv, hk, decide_true, Bool.not_false, Bool.and_self]
  · exact wf_unmappedRequest hc

theorem wf_of_decodeRequest {buf : Frame} {i : Instr} (h : decodeRequest p v buf = .ok i) : i.wf p v = true := by
  rw [decodeRequest] at h
  split at h
  · cases h
  · split at h
    · exact wf_of_validRequest h
    · exact wf_of_invalidRequest (Bool.eq_false_iff.2 (by assumption)) h

end

/-! ### Waiting among the events of the link (43_poller_fsm.md R317) -/

/-- A decoded request completes. -/
theorem exec_completes {s : State} {buf : Frame} {i : Instr} (hc : s.cfg.ok = true) (hdb : s.databaseOk)
    (hi : decodeRequest s.cfg.toProtocol s.responderView buf = .ok i) : ∃ t, exec i s = .next t := by
  obtain ⟨a, ha⟩ := requestAddr_decodeRequest hi
  obtain ⟨t, ht, -⟩ := requestMeaningsAreThePipeline i s a hc hdb (wf_of_decodeRequest hi) ha
  exact ⟨t, ht⟩

theorem onResponderRxIdle_completes {s : State} (hc : s.cfg.ok = true) (hdb : s.databaseOk) (hsrx : s.srxOk) :
    ∃ t, onResponderRxIdle s = .next t := by
  by_cases hcount : s.responder.srxCount = 0
  · exact ⟨s, onResponderRxIdle_silent hcount⟩
  · have hbuf : s.responderFrame = some (Memory.bytes s.responder.srxBuf 0 s.responder.srxCount.toNat) :=
      memRead_eq_some.2 ⟨by have := hsrx.2; omega, rfl⟩
    cases hdec : decodeRequest s.cfg.toProtocol s.responderView
        (Memory.bytes s.responder.srxBuf 0 s.responder.srxCount.toNat) with
    | error e => exact ⟨_, onResponderRxIdle_undecodable hcount hbuf hdec⟩
    | ok i =>
      rw [onResponderRxIdle_request hcount hbuf hdec]
      exact exec_completes (s := s.consumed) hc hdb hdec

/-- What an event does leaves the events to come alone (20_memory.md R91). -/
theorem onEvent_events {e : Event} {s t : State} (ht : onEvent e s = .next t) : t.events = s.events := by
  cases e with
  | reset => cases ht; rfl
  | tick => exact (onTick_polled ht).events
  | pollerRxByte b =>
    rcases onPollerRxByte_cases b s with ⟨-, h⟩ | ⟨-, h⟩ <;> cases h.symm.trans ht <;> rfl
  | pollerRxIdle =>
    simp only [onEvent, onPollerRxIdle] at ht
    split at ht <;> cases ht <;> rfl
  | responderRxByte b =>
    rcases onResponderRxByte_cases b s with ⟨-, h⟩ | ⟨-, h⟩ <;> cases h.symm.trans ht <;> rfl
  | responderRxIdle =>
    rcases onResponderRxIdle_next ht with ⟨-, rfl⟩ | ⟨buf, -, ⟨e, -, rfl⟩ | ⟨i, hi, ht⟩⟩
    · rfl
    · rfl
    · obtain ⟨a, ha⟩ := requestAddr_decodeRequest hi
      rcases exec_request (s := s.consumed) ha ht with ⟨r, rfl⟩ | ⟨k, x, e, -, -, -, -, -, rfl⟩ <;> rfl
  | appSet f => obtain ⟨r, rfl, -⟩ := onAppSet_next ht; rfl

/-- A byte or a silence of either side completes, and neither moves the poller nor counts a tick. -/
theorem onEvent_link {e : Event} {s : State} (hc : s.cfg.ok = true) (hdb : s.databaseOk) (hsrx : s.srxOk)
    (he : e.isTickOrLink = true) (htick : e ≠ .tick) :
    ∃ t, onEvent e s = .next t ∧ t.poller.state = s.poller.state ∧ t.poller.tickCnt = s.poller.tickCnt := by
  cases e with
  | tick => exact absurd rfl htick
  | pollerRxByte b =>
    rcases onPollerRxByte_cases b s with ⟨-, h⟩ | ⟨-, h⟩ <;> exact ⟨_, h, rfl, rfl⟩
  | pollerRxIdle =>
    simp only [onEvent, onPollerRxIdle]
    split <;> exact ⟨_, rfl, rfl, rfl⟩
  | responderRxByte b =>
    rcases onResponderRxByte_cases b s with ⟨-, h⟩ | ⟨-, h⟩ <;> exact ⟨_, h, rfl, rfl⟩
  | responderRxIdle =>
    obtain ⟨t, ht⟩ := onResponderRxIdle_completes hc hdb hsrx
    have hp := (Served.rxIdle ht).poller
    exact ⟨t, ht, by rw [hp], by rw [hp]⟩
  | reset | appSet _ => cases he

/-- The row of a wait state leads elsewhere by both of its entries. -/
theorem fsmRow_wait {f : FsmState} (hf : f ∈ waitStates) :
    ∃ proc retry, (fsmRow f).next = .used proc ∧ (fsmRow f).abort = .used retry ∧
      proc.code ≠ f.code ∧ retry.code ≠ f.code := by
  simp only [waitStates, List.mem_cons, List.not_mem_nil, or_false] at hf
  rcases hf with rfl | rfl | rfl | rfl <;> exact ⟨_, _, rfl, rfl, by decide, by decide⟩

/-- A tick of a wait state leaves it or is counted. -/
theorem onTick_waiting {f : FsmState} {s : State} (hf : f ∈ waitStates) (hs : s.poller.state = f.code) :
    ∃ t, onTick s = .next t ∧ (t.poller.state ≠ s.poller.state ∨
      t.poller.state = s.poller.state ∧ t.poller.tickCnt = s.poller.tickCnt + 1) := by
  obtain ⟨proc, retry, hnext, habort, hproc, hretry⟩ := fsmRow_wait hf
  rw [onTick_of_code hs, f.handler_wait hf, hs]
  rcases waitAns_cases s with ⟨-, h⟩ | ⟨-, ⟨-, h⟩ | ⟨-, -, h⟩ | ⟨-, -, h⟩⟩ <;> rw [h]
  · exact ⟨_, drive_of_target (h := ⟨_, .waitStop, _⟩) hnext, .inl hproc⟩
  · exact ⟨_, drive_of_target (f := f) (h := ⟨_, .waitOk, _⟩) rfl, .inr ⟨rfl, rfl⟩⟩
  · exact ⟨_, drive_of_target (h := ⟨_, .waitStop, _⟩) hnext, .inl hproc⟩
  · exact ⟨_, drive_of_target (h := ⟨_, .waitAbort, _⟩) habort, .inl hretry⟩

/-- An event of the tick source or of the link in a wait state completes; the poller leaves the state, or stays and
has counted the ticks. -/
theorem step_wait_event {s : State} {e : Event} {es : List Event} (hinv : s.Inv)
    (hwait : s.poller.stateIn waitStates) (he : e.isTickOrLink = true) (hev : s.events = e :: es) :
    ∃ t, step s = .next t ∧ t.events = es ∧ (t.poller.state ≠ s.poller.state ∨
      t.poller.state = s.poller.state ∧ t.poller.tickCnt.toNat = s.poller.tickCnt.toNat + [e].count .tick) := by
  obtain ⟨hc, -, hdb, hsrx⟩ := s.inv_iff.1 hinv
  obtain ⟨f, hf, hs⟩ := hwait
  obtain ⟨-, -, -, harmed, -⟩ := hinv.counters
  obtain ⟨-, hcnt⟩ := harmed ⟨f, hf, hs⟩
  obtain ⟨-, -, -, -, hlt, -⟩ := (Config.ok_iff _).1 hc
  have moved {t : State} (ht : onEvent e (s.withEvents es) = .next t) : step s = .next t ∧ t.events = es :=
    ⟨(step_event hc (hs ▸ f.code_ne_15) hev).trans ht, onEvent_events (s := s.withEvents es) ht⟩
  by_cases htick : e = .tick
  · subst htick
    obtain ⟨t, ht, hmove⟩ := onTick_waiting (s := s.withEvents es) hf hs
    obtain ⟨hstep, hes⟩ := moved ht
    refine ⟨t, hstep, hes, hmove.imp_right fun ⟨hstay, hcount⟩ => ⟨hstay, ?_⟩⟩
    rw [hcount, State.withEvents_poller, List.count_singleton_self]
    bv_omega
  · obtain ⟨t, ht, hstay, hcount⟩ := onEvent_link (s := s.withEvents es) hc hdb hsrx he htick
    obtain ⟨hstep, hes⟩ := moved ht
    refine ⟨t, hstep, hes, .inr ⟨hstay, ?_⟩⟩
    rw [hcount, List.count_eq_zero_of_not_mem (by simpa using Ne.symm htick)]
    rfl

/-- A wait state is left before its ticks run out. -/
theorem run_leaves_wait {es : List Event} (evs : List Event) (s : State) (hinv : s.Inv)
    (hwait : s.poller.stateIn waitStates) (hlink : ∀ e ∈ evs, e.isTickOrLink = true)
    (hticks : s.cfg.timeoutTicks < s.poller.tickCnt.toNat + evs.count .tick) (hev : s.events = evs ++ es) :
    ∃ n t, n ≤ evs.length ∧ run n s = .next t ∧ t.poller.state ≠ s.poller.state := by
  induction evs generalizing s with
  | nil =>
    obtain ⟨-, -, -, harmed, -⟩ := hinv.counters
    obtain ⟨-, hcnt⟩ := harmed hwait
    exact absurd hticks (Nat.not_lt.2 hcnt)
  | cons e evs ih =>
    obtain ⟨he, hlink⟩ := List.forall_mem_cons.1 hlink
    obtain ⟨t, ht, hes, hleft | ⟨hstay, hcount⟩⟩ := step_wait_event hinv hwait he hev
    · exact ⟨1, t, by simp, run_succ ht 0, hleft⟩
    · have hcons : (e :: evs).count .tick = [e].count .tick + evs.count .tick := List.count_append (l₁ := [e])
      obtain ⟨n, u, hn, hu, hne⟩ := ih t (stepKeepsTheInvariant s t hinv ht)
        (by simpa only [Poller.stateIn, hstay] using hwait) hlink (by rw [step_cfg ht]; omega) hes
      exact ⟨n + 1, u, Nat.succ_le_succ hn, (run_succ ht n).trans hu, hstay ▸ hne⟩

/-- Settles O41: the armed timeout is at most T ticks away, and any T + 1 ticks pass it. -/
theorem waitStatesAreBounded : Obligations.WaitStatesAreBounded := by
  intro s evs es hinv hwait hlink hcount hev
  obtain ⟨n, t, hn, ht, hne⟩ := run_leaves_wait evs s hinv hwait hlink (by omega) hev
  exact ⟨n, t, hn, ht, hne, ((List.take_sublist n evs).count_le _).trans hcount.le⟩

end Sys2Proof.Machine
end

section
/-!
What the scheduler promises (44_scheduler.md): the due list of call N is the list of the intervals that divide N
(R324), and a poller without a schedule stays in RUN_SCH and sends nothing (R328).
-/

namespace Sys2Proof.Machine

/-! ### The countdown of an entry (44_scheduler.md R321 to R323) -/

/-- An entry after `k` ticks: the remaining countdown, between 1 and the interval, leads to the next multiple of the
interval. -/
structure SchedEntry.Phase (x : SchedEntry) (k : Nat) : Prop where
  pos : 1 ≤ x.countdown.toNat
  le : x.countdown.toNat ≤ x.interval.toNat
  dvd : x.interval.toNat ∣ k + x.countdown.toNat

/-- A new entry of a scheduled point counts from its whole interval. -/
theorem SchedEntry.phase_schedEntryOf {b : AccessBits} {d : PointDesc} (h : isScheduled b d = true) (i : Nat) :
    (schedEntryOf i d).Phase 0 := by
  obtain ⟨-, hsampled⟩ := isScheduled_iff.1 h
  exact ⟨Nat.one_le_iff_ne_zero.2 fun h0 => hsampled (BitVec.eq_of_toNat_eq h0), le_rfl, (Nat.zero_add _).symm.dvd⟩

/-- The countdown is reloaded exactly where a multiple of the interval is reached. -/
theorem SchedEntry.Phase.tick {x : SchedEntry} {k : Nat} (h : x.Phase k) : x.tick.Phase (k + 1) := by
  obtain ⟨hpos, hle, hdvd⟩ := h
  obtain ⟨hpos', hle'⟩ := SchedEntry.tick_countdown hpos hle
  refine ⟨hpos', by rwa [tick_interval], ?_⟩
  rw [tick_interval, tick_eq]
  split
  case isTrue hone =>
    rw [hone] at hdvd
    exact (Nat.dvd_add_self_right).2 hdvd
  case isFalse =>
    have hcount : k + 1 + (x.countdown - 1).toNat = k + x.countdown.toNat := by bv_omega
    exact hcount ▸ hdvd

/-- An entry is due on the next tick exactly where that tick's number is a multiple of its interval. -/
theorem SchedEntry.Phase.isDue_iff {x : SchedEntry} {k : Nat} (h : x.Phase k) :
    x.isDue = true ↔ x.interval.toNat ∣ k + 1 := by
  obtain ⟨hpos, hle, hdvd⟩ := h
  rw [SchedEntry.isDue_iff]
  refine ⟨fun hone => ?_, fun hnext => ?_⟩
  · rw [hone] at hdvd
    exact hdvd
  · have hrest : x.interval.toNat ∣ x.countdown.toNat - 1 := by
      have hdiff := Nat.dvd_sub hdvd hnext
      rwa [Nat.add_sub_add_left] at hdiff
    have hzero : x.countdown.toNat - 1 = 0 := Nat.eq_zero_of_dvd_of_lt hrest (by omega)
    exact BitVec.eq_of_toNat_eq (show x.countdown.toNat = 1 by omega)

theorem SchedEntry.Phase.iterate_tick {x : SchedEntry} (h : x.Phase 0) (k : Nat) : (SchedEntry.tick^[k] x).Phase k := by
  induction k with
  | zero => exact h
  | succ k ih => rw [Function.iterate_succ_apply']; exact ih.tick

@[simp] theorem SchedEntry.iterate_tick_idx (k : Nat) (x : SchedEntry) : (tick^[k] x).idx = x.idx := by
  induction k with
  | zero => rfl
  | succ k ih => rw [Function.iterate_succ_apply', tick_idx, ih]

@[simp] theorem SchedEntry.iterate_tick_interval (k : Nat) (x : SchedEntry) :
    (tick^[k] x).interval = x.interval := by
  induction k with
  | zero => rfl
  | succ k ih => rw [Function.iterate_succ_apply', tick_interval, ih]

/-! ### The due list of a call (44_scheduler.md R324) -/

/-- Calls of `schedule_tick` tick each entry by itself. -/
theorem iterate_scheduleTick (k : Nat) (sch : List SchedEntry) :
    scheduleTick^[k] sch = sch.map SchedEntry.tick^[k] := by
  induction k with
  | zero => exact (List.map_id sch).symm
  | succ k ih => rw [Function.iterate_succ_apply', ih, scheduleTick, List.map_map, Function.iterate_succ']

/-- After `k` calls on new entries, those are due whose interval divides the number of the next call. -/
theorem scheduleDue_iterate_scheduleTick {sch : List SchedEntry} (h : ∀ x ∈ sch, x.Phase 0) (k : Nat) :
    scheduleDue (scheduleTick^[k] sch) =
      (sch.filter fun x => decide (x.interval.toNat ∣ k + 1)).map SchedEntry.idx := by
  have hdue : ∀ x ∈ sch, (SchedEntry.isDue ∘ SchedEntry.tick^[k]) x = decide (x.interval.toNat ∣ k + 1) := by
    intro x hx
    rw [Bool.eq_iff_iff, decide_eq_true_iff, Function.comp_apply, ((h x hx).iterate_tick k).isDue_iff,
      SchedEntry.iterate_tick_interval]
  rw [iterate_scheduleTick, scheduleDue, List.filter_map, List.map_map, List.filter_congr hdue]
  exact List.map_congr_left fun x _ => x.iterate_tick_idx k

theorem State.phase_of_mem_buildSchedule {s : State} {x : SchedEntry} (h : x ∈ s.buildSchedule) : x.Phase 0 := by
  obtain ⟨k, d, -, hd, rfl⟩ := mem_scheduleFrom h
  exact SchedEntry.phase_schedEntryOf hd _

/-- Whatever the point table holds, its counter is one byte and so are the indices built (44_scheduler.md R320). -/
theorem State.buildSchedule_ascending (s : State) :
    s.buildSchedule.Pairwise fun x y => x.idx.toNat < y.idx.toNat :=
  scheduleFrom_ascending (by simpa using s.poller.ptCount.isLt.le)

/-- Settles O37: each countdown leads to the next multiple of its interval, and the due list keeps the schedule's
order. -/
theorem dueListIsTheDivisors : Obligations.DueListIsTheDivisors := by
  intro s n hn sch
  obtain ⟨k, rfl⟩ := Nat.exists_eq_add_of_le' hn
  have hdue := scheduleDue_iterate_scheduleTick (sch := sch) (fun _ => State.phase_of_mem_buildSchedule) k
  rw [Nat.add_sub_cancel]
  refine ⟨hdue, ?_⟩
  rw [hdue, List.pairwise_map]
  exact s.buildSchedule_ascending.sublist List.filter_sublist

/-! ### Runs over a list of events -/

theorem run_succ_next {n : Nat} {s t : State} (h : run (n + 1) s = .next t) :
    ∃ u, step s = .next u ∧ run n u = .next t := by
  rw [run] at h
  split at h
  · exact ⟨_, by assumption, h⟩
  · cases h
  · cases h

/-- Where each event of a kind completes and keeps `P`, so does every list of such events. -/
theorem run_completes {P : State → Prop} {kind : Event → Bool}
    (hstep : ∀ e es s, kind e = true → P s → s.events = e :: es → ∃ t, step s = .next t ∧ P t ∧ t.events = es)
    {es : List Event} (evs : List Event) (s : State) (hevs : ∀ e ∈ evs, kind e = true) (hs : P s)
    (he : s.events = evs ++ es) : ∃ t, run evs.length s = .next t ∧ P t ∧ t.events = es := by
  induction evs generalizing s with
  | nil => exact ⟨s, rfl, hs, he⟩
  | cons e evs ih =>
    obtain ⟨hkind, hevs⟩ := List.forall_mem_cons.1 hevs
    obtain ⟨u, hu, hPu, hue⟩ := hstep e _ s hkind hs he
    obtain ⟨t, ht, hPt, hte⟩ := ih u hevs hPu hue
    exact ⟨t, (run_succ hu _).trans ht, hPt, hte⟩

/-! ### A poller without a schedule (44_scheduler.md R328) -/

/-- The poller is in RUN_SCH and has nothing to schedule. -/
structure Poller.Idle (p : Poller) : Prop where
  state : p.state = 11
  sched : p.sched = []

/-- What events `evs` leave of an idle poller's registers, and what it has sent: it is still idle, has sent nothing,
and a tick among them has emptied its due list. -/
structure Idled (evs : List Event) (s t : State) : Prop where
  idle : t.poller.Idle
  pTx : t.pTx = s.pTx
  due : t.poller.due = if .tick ∈ evs then [] else s.poller.due

theorem Idled.refl {s : State} (h : s.poller.Idle) : Idled [] s s := ⟨h, rfl, rfl⟩

theorem Idled.cons {e : Event} {evs : List Event} {s t u : State} (h : Idled [e] s t) (h' : Idled evs t u) :
    Idled (e :: evs) s u where
  idle := h'.idle
  pTx := h'.pTx.trans h.pTx
  due := by
    rw [h'.due, h.due]
    by_cases htail : Event.tick ∈ evs <;> simp [htail]

/-- A tick finds nothing due, and completes. -/
theorem onTick_idle {s : State} (h : s.poller.Idle) :
    ∃ t, onTick s = .next t ∧ PollerStepped s t ((s.poller.setDue [] []).goto 11) [] := by
  have hrun : handleRunSch s = .waitOk (s.withPoller (s.poller.setDue [] [])) := by
    rw [handleRunSch, h.sched]
    rfl
  rw [onTick_of_code (f := .runSch) h.state, FsmState.handler, hrun]
  exact drive_waitOk (f := .runSch) (.withPoller s _)

/-- A byte or a silence of the poller's side completes, and writes its receive path only (10_state.md R81, R82). -/
theorem onEvent_pollers_receive {e : Event} (s : State) (he : e.isPollers = true) (htick : e ≠ .tick) :
    ∃ p, onEvent e s = .next (s.withPoller p) ∧
      p.state = s.poller.state ∧ p.sched = s.poller.sched ∧ p.due = s.poller.due := by
  cases e with
  | tick => exact absurd rfl htick
  | pollerRxByte b => rcases onPollerRxByte_cases b s with ⟨-, h⟩ | ⟨-, h⟩ <;> exact ⟨_, h, rfl, rfl, rfl⟩
  | pollerRxIdle =>
    simp only [onEvent, onPollerRxIdle]
    split <;> exact ⟨_, rfl, rfl, rfl, rfl⟩
  | reset | responderRxByte _ | responderRxIdle | appSet _ => cases he

/-- The responder's side does not write to the poller's link. -/
theorem onEvent_responders_pTx {e : Event} {s t : State} (he : e.isResponders = true)
    (ht : onEvent e s = .next t) : t.pTx = s.pTx := by
  cases e with
  | responderRxByte b =>
    rcases onResponderRxByte_cases b s with ⟨-, h⟩ | ⟨-, h⟩ <;> cases h.symm.trans ht <;> rfl
  | responderRxIdle =>
    rcases onResponderRxIdle_next ht with ⟨-, rfl⟩ | ⟨buf, -, ⟨e, -, rfl⟩ | ⟨i, hi, ht⟩⟩
    · rfl
    · rfl
    · obtain ⟨a, ha⟩ := requestAddr_decodeRequest hi
      rcases exec_request (s := s.consumed) ha ht with ⟨r, rfl⟩ | ⟨k, x, e, -, -, -, -, -, rfl⟩ <;> rfl
  | appSet f => obtain ⟨r, rfl, -⟩ := onAppSet_next ht; rfl
  | reset | tick | pollerRxByte _ | pollerRxIdle => cases he

/-- Every event but `RESET` leaves an idle poller idle. -/
theorem onEvent_idled {e : Event} {s t : State} (h : s.poller.Idle) (hreset : e ≠ .reset)
    (ht : onEvent e s = .next t) : Idled [e] s t := by
  by_cases htick : e = .tick
  · subst htick
    obtain ⟨u, hu, hstepped⟩ := onTick_idle h
    cases hu.symm.trans ht
    refine ⟨?_, hstepped.pTx.trans (List.append_nil _), ?_⟩ <;> rw [hstepped.poller]
    · exact ⟨rfl, rfl⟩
    · rfl
  · have hdue : (if .tick ∈ [e] then [] else s.poller.due) = s.poller.due :=
      if_neg (mt List.mem_singleton.1 (Ne.symm htick))
    rcases e.side with he | he | he
    · exact absurd he hreset
    · obtain ⟨p, hp, hstate, hsched, hdue'⟩ := onEvent_pollers_receive s he htick
      cases hp.symm.trans ht
      exact ⟨⟨hstate.trans h.state, hsched.trans h.sched⟩, rfl, hdue'.trans hdue.symm⟩
    · have hpoller := (onEvent_responders he ht).poller
      exact ⟨hpoller ▸ h, onEvent_responders_pTx he ht, hpoller ▸ hdue.symm⟩

section
variable {e : Event} {es : List Event} {s : State} (h : s.poller.Idle) (hev : s.events = e :: es)
include h hev

theorem step_idle_event (hc : s.cfg.ok = true) : step s = onEvent e (s.withEvents es) :=
  step_event hc (by rw [h.state]; decide) hev

/-- A step over an event other than `RESET` consumes it and leaves the poller idle. -/
theorem step_idled {t : State} (hreset : e ≠ .reset) (ht : step s = .next t) : Idled [e] s t ∧ t.events = es := by
  obtain ⟨hc, -⟩ := step_next ht
  rw [step_idle_event h hev hc] at ht
  obtain ⟨hidle, hpTx, hdue⟩ := onEvent_idled (s := s.withEvents es) h hreset ht
  exact ⟨⟨hidle, hpTx, hdue⟩, onEvent_events ht⟩

/-- An event of the tick source or of the link completes on an idle poller. -/
theorem step_idle_tickOrLink (he : e.isTickOrLink = true) (hinv : s.Inv) :
    ∃ t, step s = .next t ∧ (t.Inv ∧ t.poller.Idle) ∧ t.events = es := by
  obtain ⟨hc, -, hdb, hsrx⟩ := s.inv_iff.1 hinv
  obtain ⟨t, ht⟩ : ∃ t, step s = .next t := by
    rw [step_idle_event h hev hc]
    by_cases htick : e = .tick
    · subst htick
      exact (onTick_idle (s := s.withEvents es) h).imp fun _ => And.left
    · exact (onEvent_link (s := s.withEvents es) hc hdb hsrx he htick).imp fun _ => And.left
  obtain ⟨hidled, hes⟩ := step_idled h hev (by rintro rfl; cases he) ht
  exact ⟨t, ht, ⟨stepKeepsTheInvariant s t hinv ht, hidled.idle⟩, hes⟩

/-- An event of the poller's side completes on an idle poller, whatever the responder's registers hold. -/
theorem step_idle_pollers (he : e.isPollers = true) (hc : s.cfg.ok = true) :
    ∃ t, step s = .next t ∧ t.cfg.ok = true ∧ t.poller.Idle ∧ t.responder = s.responder ∧ t.events = es := by
  have hstep := step_idle_event h hev hc
  obtain ⟨t, ht⟩ : ∃ t, onEvent e (s.withEvents es) = .next t := by
    by_cases htick : e = .tick
    · subst htick
      exact (onTick_idle (s := s.withEvents es) h).imp fun _ => And.left
    · obtain ⟨p, hp, -⟩ := onEvent_pollers_receive (s.withEvents es) he htick
      exact ⟨_, hp⟩
  obtain ⟨hidled, hes⟩ := step_idled h hev (by rintro rfl; cases he) (hstep.trans ht)
  obtain ⟨hcfg, hresp⟩ := onEvent_pollers he ht
  exact ⟨t, hstep.trans ht, hcfg ▸ hc, hidled.idle, hresp, hes⟩

end

/-- A run over events short of `RESET` leaves the poller idle, as far as it completes. -/
theorem run_idled {es : List Event} (n : Nat) (evs : List Event) (s : State) {t : State} (h : s.poller.Idle)
    (hreset : .reset ∉ evs) (hev : s.events = evs ++ es) (hn : n ≤ evs.length) (ht : run n s = .next t) :
    Idled (evs.take n) s t := by
  induction n generalizing evs s with
  | zero => cases ht; exact .refl h
  | succ n ih =>
    cases evs with
    | nil => cases hn
    | cons e evs =>
      obtain ⟨hne, hreset⟩ := not_or.1 (mt List.mem_cons.2 hreset)
      obtain ⟨u, hu, ht⟩ := run_succ_next ht
      obtain ⟨hidled, hue⟩ := step_idled h hev (Ne.symm hne) hu
      exact hidled.cons (ih evs u hidled.idle hreset hue (Nat.le_of_succ_le_succ hn) ht)

/-- Settles O38: every event but `RESET` leaves the poller idle, and the kinds of events named complete. -/
theorem emptyScheduleIdlesForever : Obligations.EmptyScheduleIdlesForever := by
  intro evs es s hc hstate hsched hreset he
  have hidle : s.poller.Idle := ⟨hstate, hsched⟩
  refine ⟨fun n t hn ht => ?_, fun hinv hlink => ?_, fun hpollers => ?_⟩
  · obtain ⟨⟨hstate', hsched'⟩, hpTx, hdue⟩ := run_idled n evs s hidle hreset he hn ht
    exact ⟨hstate', hsched', hpTx, fun htick => hdue.trans (if_pos htick)⟩
  · obtain ⟨t, ht, -, hes⟩ := run_completes (P := fun u => u.Inv ∧ u.poller.Idle)
      (fun e es u he ⟨hinv, hidle⟩ hev => step_idle_tickOrLink hidle hev he hinv) evs s hlink ⟨hinv, hidle⟩ he
    exact ⟨t, ht, hes⟩
  · obtain ⟨t, ht, ⟨-, -, hresp⟩, hes⟩ := run_completes
      (P := fun u => u.cfg.ok = true ∧ u.poller.Idle ∧ u.responder = s.responder)
      (fun e es u he ⟨hc, hidle, hresp⟩ hev => by
        obtain ⟨t, ht, hc', hidle', hresp', hes⟩ := step_idle_pollers hidle hev he hc
        exact ⟨t, ht, ⟨hc', hidle', hresp'.trans hresp⟩, hes⟩) evs s hpollers ⟨hc, hidle, rfl⟩ he
    exact ⟨t, ht, hresp, hes⟩

end Sys2Proof.Machine
end

section
/-!
From a state with the invariant no step faults, and the rules on the environment's moves are the only ground for a
refusal (60_exceptions.md R340, R372).
-/

namespace Sys2Proof.Machine

/-! ### A tick completes (43_poller_fsm.md R270, R273) -/

/-- A handler finds the bytes it decodes while the fill count is within the buffer (20_memory.md R90). -/
theorem FsmState.handler_completes {s : State} (hrx : s.poller.rxCount.toNat ≤ s.cfg.rxBufSize) (f : FsmState) :
    ∃ h, f.handler s = .ok h := by
  have answered (judge : Except CodecError Response → State → Handled) : ∃ h, processAnswer s judge = .ok h := by
    have hbuf : s.pollerFrame = some (Memory.bytes s.poller.rxBuf 0 s.poller.rxCount.toNat) :=
      memRead_eq_some.2 ⟨by omega, rfl⟩
    exact ⟨_, by rw [processAnswer, hbuf]⟩
  cases f with
  | procItfVer | procBrdId | procPtDesc => exact answered _
  | procPtVal => exact answered fun r s => judgePtVal s.dueIndex r s.nextFree
  | init | sendItfVer | waitItfVerAns | sendBrdId | waitBrdIdAns | sendPtDesc | waitPtDescAns | buildSch | runSch
  | sendPtVal | waitPtValAns => exact ⟨_, rfl⟩

/-- No result a handler can end with selects an unused entry of the table (43_poller_fsm.md R273). -/
theorem FsmState.target_used {f : FsmState} {r : HandlerResult} (hr : r ∈ f.results) : ∃ g, f.target r = .used g := by
  have entries : ∀ f ∈ FsmState.all, ∀ r ∈ f.results, ∃ g ∈ FsmState.all, f.target r = .used g := by decide
  obtain ⟨g, -, hg⟩ := entries f f.mem_all r hr
  exact ⟨g, hg⟩

theorem onTick_completes {s : State} (hs : s.poller.state ≠ 15) (hrx : s.poller.rxCount.toNat ≤ s.cfg.rxBufSize) :
    ∃ t, onTick s = .next t := by
  obtain ⟨f, hf⟩ := FsmState.exists_code hs
  obtain ⟨h, hh⟩ := f.handler_completes hrx
  obtain ⟨g, hg⟩ := FsmState.target_used (FsmState.handler_result hh)
  rw [onTick_of_code hf, hh]
  exact ⟨_, drive_of_target hg⟩

/-! ### The moves of the sensor application (60_exceptions.md R372) -/

/-- A value that a point's descriptor does not take is of another datatype or of another width. -/
theorem PointDesc.not_takes {p : Protocol} {d : PointDesc} {x : Value} (h : ¬ d.takes p x = true) :
    Datatype.ofCode p d.dtype ≠ some x.dt ∨ x.fits p = false := by
  rw [PointDesc.takes_iff, not_and_or, Bool.not_eq_true] at h
  exact h

/-- With a sound database `APP_SET` completes, or is refused for the part of R372 that it breaks
(notes/assumptions/14.md). -/
theorem onAppSet_completes_or_refused {s : State} (hc : s.cfg.ok = true) (hdb : s.databaseOk) (f : AppField) :
    (∃ t, onAppSet f s = .next t) ∨
      (∃ i x, f = .pointValue i x ∧
        ((onAppSet f s = .refused .appSetNoSuchPoint ∧ s.cfg.np ≤ i.toNat) ∨
          (onAppSet f s = .refused .appSetWrongDatatype ∧ ∃ e, s.responder.ptDb[i.toNat]? = some e ∧
            (Datatype.ofCode s.cfg.toProtocol e.desc.dtype ≠ some x.dt ∨ x.fits s.cfg.toProtocol = false)))) ∨
      ∃ a, (f = .svrMain a ∨ f = .svrSec a) ∧ onAppSet f s = .refused .appSetWrongLength ∧
        a.length ≠ s.cfg.fieldSizes.svrAddr := by
  cases f with
  | brdStatus _ | batStatus _ | batCharge _ => exact .inl ⟨_, rfl⟩
  | svrMain a =>
    by_cases hl : a.length = s.cfg.fieldSizes.svrAddr
    · exact .inl ⟨_, if_pos hl⟩
    · exact .inr (.inr ⟨a, .inl rfl, if_neg hl, hl⟩)
  | svrSec a =>
    by_cases hl : a.length = s.cfg.fieldSizes.svrAddr
    · exact .inl ⟨_, if_pos hl⟩
    · exact .inr (.inr ⟨a, .inr rfl, if_neg hl, hl⟩)
  | pointValue i x =>
    by_cases hi : i.toNat < s.cfg.np
    · obtain ⟨e, he⟩ : ∃ e, s.responder.ptDb[i.toNat]? = some e :=
        ⟨_, List.getElem?_eq_getElem (hi.trans_eq (hdb.length_ptDb hc).symm)⟩
      have hset := onAppSet_pointValue (x := x) hi he
      by_cases htakes : e.desc.takes s.cfg.toProtocol x = true
      · exact .inl ⟨_, hset.trans (if_pos htakes)⟩
      · exact .inr (.inl ⟨i, x, rfl, .inr ⟨hset.trans (if_neg htakes), _, he, PointDesc.not_takes htakes⟩⟩)
    · have hnp := Nat.not_lt.1 hi
      exact .inr (.inl ⟨i, x, rfl, .inl ⟨onAppSet_noSuchPoint hnp, hnp⟩⟩)

/-- Settles O59: of the events only an `APP_SET` can fail to complete, and then by the refusal its fields call for. -/
theorem invariantStatesNeverFault : Obligations.InvariantStatesNeverFault := by
  intro s hinv
  obtain ⟨hc, ⟨f, hf, hdata, -⟩, hdb, hsrx⟩ := s.inv_iff.1 hinv
  have hs : s.poller.state ≠ 15 := hf ▸ f.code_ne_15
  cases hev : s.events with
  | nil => exact .inl ⟨s, by rw [step, stepState, if_pos hc, if_neg hs, hev]⟩
  | cons e es =>
    rw [step_event hc hs hev]
    cases e with
    | reset => exact .inl ⟨_, rfl⟩
    | tick => exact .inl (onTick_completes (s := s.withEvents es) hs hdata.rxCount)
    | pollerRxByte _ | pollerRxIdle | responderRxByte _ | responderRxIdle =>
      exact .inl ((onEvent_link (s := s.withEvents es) hc hdb hsrx rfl (by simp)).imp fun _ => And.left)
    | appSet f =>
      rcases onAppSet_completes_or_refused (s := s.withEvents es) hc hdb f with
        ht | ⟨i, x, rfl, hrefused⟩ | ⟨a, hf, hrefused⟩
      · exact .inl ht
      · exact .inr (.inl ⟨i, x, es, rfl, hrefused⟩)
      · exact .inr (.inr ⟨a, es, hf.imp (by rintro rfl; rfl) (by rintro rfl; rfl), hrefused⟩)

end Sys2Proof.Machine
end

section
/-!
The two units share no state (60_exceptions.md R366), by two-run noninterference: what a unit does to its own registers
and sends is a function of the event, the configuration and its own registers.
-/

namespace Sys2Proof.Machine

/-! ### Two runs that the poller cannot tell apart -/

/-- Two runs, from `s` to `t` and from `u` to `v`, that agree on the poller and on what it has sent since. -/
structure SamePolled (s u t v : State) : Prop where
  cfg : v.cfg = t.cfg
  poller : v.poller = t.poller
  freeSeq : v.freeSeq = t.freeSeq
  sent : ∃ fs, t.pTx = s.pTx ++ fs ∧ v.pTx = u.pTx ++ fs

/-- The same of what two handlers leave; the driver then selects the same entry for both. -/
structure SameHandled (s u : State) (h k : Handled) : Prop where
  state : SamePolled s u h.state k.state
  result : k.result = h.result

section
variable {s u t v : State} (hs : SamePolled s u t v)
include hs

/-! One rule per update of the poller's side. -/

theorem SamePolled.withPoller (p : Poller) : SamePolled s u (t.withPoller p) (v.withPoller p) :=
  { hs with poller := rfl }

theorem SamePolled.crcIdle : SamePolled s u t.crcIdle v.crcIdle := ⟨hs.cfg, hs.poller, hs.freeSeq, hs.sent⟩

theorem SamePolled.nextFree : SamePolled s u t.nextFree v.nextFree :=
  ⟨hs.cfg, hs.poller, congrArg (· + 1) hs.freeSeq, hs.sent⟩

theorem SamePolled.emitP (f : Frame) : SamePolled s u (t.emitP f) (v.emitP f) := by
  obtain ⟨fs, ht, hv⟩ := hs.sent
  exact { hs with sent := ⟨fs ++ [f], by simp [ht], by simp [hv]⟩ }

theorem SamePolled.send (a : Byte) : SamePolled s u (t.send a) (v.send a) := by
  unfold State.send
  rw [hs.cfg, hs.poller]
  exact ((hs.withPoller _).emitP _).crcIdle

/-! One rule per read of the poller's side. -/

theorem SamePolled.numOfPoints : v.numOfPoints = t.numOfPoints := by
  simp only [State.numOfPoints, hs.poller, hs.freeSeq]

theorem SamePolled.dueIndex : v.dueIndex = t.dueIndex := by simp only [State.dueIndex, hs.poller, hs.freeSeq]

theorem SamePolled.descIn (f : RspFields) : v.descIn f = t.descIn f := by
  unfold State.descIn
  rw [hs.poller, hs.freeSeq]

theorem SamePolled.valueIn (f : RspFields) : v.valueIn f = t.valueIn f := by
  unfold State.valueIn
  rw [hs.freeSeq]

theorem SamePolled.buildSchedule : v.buildSchedule = t.buildSchedule := by
  have hdesc : v.descAt = t.descAt := by
    funext i
    simp only [State.descAt, hs.poller, hs.freeSeq]
  rw [State.buildSchedule, hs.cfg, hs.poller, hdesc, State.buildSchedule]

theorem SamePolled.pollerFrame : v.pollerFrame = t.pollerFrame := by
  rw [State.pollerFrame, hs.cfg, hs.poller, State.pollerFrame]

theorem SamePolled.answer (buf : Frame) : v.answer buf = t.answer buf := by
  have hview : v.pollerView = t.pollerView := by rw [State.pollerView, hs.cfg, hs.poller, State.pollerView]
  rw [State.answer, hs.cfg, hview, State.answer]

/-! One rule per operation that several handlers share. -/

theorem SamePolled.waitAns : SameHandled s u (waitAns t) (waitAns v) := by
  unfold Machine.waitAns
  rw [hs.poller]
  dsimp only
  split
  · exact ⟨hs, rfl⟩
  · split
    · split <;> exact ⟨hs.withPoller _, rfl⟩
    · exact ⟨hs.withPoller _, rfl⟩

theorem SamePolled.countedSend (a : Byte) : SameHandled s u (countedSend t a) (countedSend v a) := by
  have hcount : SamePolled s u (t.withPoller t.poller.countRetry) (v.withPoller v.poller.countRetry) :=
    hs.poller ▸ hs.withPoller _
  unfold Machine.countedSend
  dsimp only
  rw [hcount.cfg, hcount.poller]
  split
  · exact ⟨hcount, rfl⟩
  · exact ⟨hcount.send a, rfl⟩

/-! One rule per judgement of an answer. -/

theorem SamePolled.judgeItfVer (r : Except CodecError Response) :
    SameHandled s u (judgeItfVer r t) (judgeItfVer r v) := by
  unfold Machine.judgeItfVer
  rw [hs.cfg]
  repeat' split
  all_goals exact ⟨hs, rfl⟩

theorem SamePolled.judgeBrdId (r : Except CodecError Response) :
    SameHandled s u (judgeBrdId r t) (judgeBrdId r v) := by
  unfold Machine.judgeBrdId
  rw [hs.cfg, hs.poller]
  split
  · exact ⟨hs, rfl⟩
  · split
    · exact ⟨hs, rfl⟩
    · split
      · exact ⟨hs, rfl⟩
      · split
        · split <;> exact ⟨hs.withPoller _, rfl⟩
        · exact ⟨hs, rfl⟩

theorem SamePolled.judgePtDesc (r : Except CodecError Response) :
    SameHandled s u (judgePtDesc r t) (judgePtDesc r v) := by
  unfold Machine.judgePtDesc
  rw [hs.cfg, hs.poller]
  cases r with
  | error e => exact ⟨hs, rfl⟩
  | ok r =>
    dsimp only
    rw [hs.descIn]
    split
    · exact ⟨hs.nextFree.withPoller _, rfl⟩
    · exact ⟨hs, rfl⟩

theorem SamePolled.judgePtVal (i : BitVec 8) (r : Except CodecError Response) :
    SameHandled s u (judgePtVal i r t) (judgePtVal i r v) := by
  unfold Machine.judgePtVal
  rw [hs.cfg, hs.poller]
  cases r with
  | error e => exact ⟨hs, rfl⟩
  | ok r =>
    dsimp only
    rw [hs.valueIn]
    split
    · exact ⟨hs.withPoller _, rfl⟩
    · split
      · exact ⟨hs, rfl⟩
      · exact ⟨hs.withPoller _, rfl⟩

/-- Both runs decode the same bytes to the same answer (41_codec.md R220). -/
theorem SamePolled.processAnswer {judge : Except CodecError Response → State → Handled} {h : Handled}
    (hj : ∀ {t v : State} (r : Except CodecError Response), SamePolled s u t v →
      SameHandled s u (judge r t) (judge r v))
    (hh : processAnswer t judge = .ok h) : ∃ k, processAnswer v judge = .ok k ∧ SameHandled s u h k := by
  obtain ⟨buf, hbuf, rfl⟩ := processAnswer_ok hh
  refine ⟨judge (t.answer buf) v.crcIdle, ?_, hj _ hs.crcIdle⟩
  rw [Machine.processAnswer, hs.pollerFrame, hbuf]
  dsimp only
  rw [hs.answer]

/-- A handler reads the configuration and the poller only. -/
theorem FsmState.handler_samePolled {f : FsmState} {h : Handled} (hh : f.handler t = .ok h) :
    ∃ k, f.handler v = .ok k ∧ SameHandled s u h k := by
  cases f with
  | init =>
    cases hh
    refine ⟨_, rfl, ?_, rfl⟩
    rw [hs.cfg, hs.poller]
    exact hs.withPoller _
  | sendItfVer | sendBrdId =>
    cases hh
    refine ⟨_, rfl, ?_, rfl⟩
    rw [hs.cfg]
    exact hs.send _
  | waitItfVerAns | waitBrdIdAns | waitPtDescAns | waitPtValAns => cases hh; exact ⟨_, rfl, hs.waitAns⟩
  | procItfVer => exact hs.processAnswer (fun r h => h.judgeItfVer r) hh
  | procBrdId => exact hs.processAnswer (fun r h => h.judgeBrdId r) hh
  | procPtDesc => exact hs.processAnswer (fun r h => h.judgePtDesc r) hh
  | procPtVal =>
    refine hs.processAnswer (judge := fun r s => judgePtVal s.dueIndex r s.nextFree) (fun r h => ?_) hh
    rw [h.dueIndex]
    exact h.nextFree.judgePtVal _ r
  | sendPtDesc =>
    cases hh
    refine ⟨_, rfl, ?_⟩
    unfold handleSendPtDesc
    rw [hs.cfg, hs.poller, hs.numOfPoints]
    split
    · exact ⟨hs.nextFree, rfl⟩
    · exact hs.nextFree.countedSend _
  | buildSch =>
    cases hh
    refine ⟨_, rfl, ?_, rfl⟩
    unfold handleBuildSch
    rw [hs.poller, hs.buildSchedule]
    exact hs.nextFree.withPoller _
  | runSch =>
    cases hh
    refine ⟨_, rfl, ?_⟩
    unfold handleRunSch
    rw [hs.poller]
    dsimp only
    split <;> exact ⟨hs.withPoller _, rfl⟩
  | sendPtVal =>
    cases hh
    refine ⟨_, rfl, ?_⟩
    unfold handleSendPtVal
    rw [hs.cfg, hs.poller]
    split
    · exact ⟨hs, rfl⟩
    · exact hs.countedSend _

/-- A tick runs the same handler in both runs, and its result selects the same state. -/
theorem onTick_samePolled {t' : State} (ht : onTick t = .next t') :
    ∃ v', onTick v = .next v' ∧ SamePolled s u t' v' := by
  obtain ⟨f, h, g, hf, hh, hg, rfl⟩ := onTick_handler ht
  obtain ⟨k, hk, hstate, hres⟩ := FsmState.handler_samePolled hs hh
  rw [← hs.poller] at hf
  rw [onTick_of_code hf, hk]
  refine ⟨_, drive_of_target (hres ▸ hg), ?_⟩
  rw [hstate.poller]
  exact hstate.withPoller _

/-- An event of the poller's side does the same to the poller in both runs. -/
theorem onEvent_samePolled {e : Event} {t' : State} (he : e.isPollers = true) (ht : onEvent e t = .next t') :
    ∃ v', onEvent e v = .next v' ∧ SamePolled s u t' v' := by
  cases e with
  | tick => exact onTick_samePolled hs ht
  | pollerRxByte b =>
    simp only [onEvent, onPollerRxByte, hs.cfg, hs.poller] at ht ⊢
    split at ht <;> cases ht <;> rename_i hroom
    · exact ⟨_, if_pos hroom, hs.withPoller _⟩
    · exact ⟨_, if_neg hroom, hs⟩
  | pollerRxIdle =>
    simp only [onEvent, onPollerRxIdle, hs.poller] at ht ⊢
    split at ht <;> cases ht <;> rename_i hcount
    · exact ⟨_, if_pos hcount, hs.withPoller _⟩
    · exact ⟨_, if_neg hcount, hs⟩
  | reset | responderRxByte _ | responderRxIdle | appSet _ => cases he

end

/-- The poller's side writes neither the responder nor its link. -/
theorem onEvent_pollers_frame {e : Event} {s t : State} (he : e.isPollers = true) (ht : onEvent e s = .next t) :
    t.responder = s.responder ∧ t.rTx = s.rTx := by
  refine ⟨(onEvent_pollers he ht).2, ?_⟩
  by_cases htick : e = .tick
  · subst htick
    exact (onTick_polled ht).rTx
  · obtain ⟨p, hp, -⟩ := onEvent_pollers_receive s he htick
    cases hp.symm.trans ht
    rfl

/-! ### Two runs that the responder cannot tell apart -/

/-- If the run from `s` completes, the run from `u` does too, with the same responder and the same frames sent. -/
def SameServed (s u : State) (o o' : Host.Outcome State Fault Refusal) : Prop :=
  ∀ t, o = .next t → ∃ v fs, o' = .next v ∧ v.responder = t.responder ∧ t.rTx = s.rTx ++ fs ∧ v.rTx = u.rTx ++ fs

section
variable {s u : State}

/-- Both runs leave the same responder and send nothing. -/
theorem SameServed.silent {t v : State} (hr : v.responder = t.responder) (ht : t.rTx = s.rTx) (hv : v.rTx = u.rTx) :
    SameServed s u (.next t) (.next v) := by
  rintro _ ⟨⟩
  exact ⟨v, [], rfl, hr, by simpa using ht, by simpa using hv⟩

theorem SameServed.fault (e : Fault) (o : Host.Outcome State Fault Refusal) : SameServed s u (.fault e) o := nofun

theorem SameServed.refused (e : Refusal) (o : Host.Outcome State Fault Refusal) : SameServed s u (.refused e) o := nofun

/-- Two runs of one request. -/
theorem SameAnswer.sameServed {o o' : Host.Outcome State Fault Refusal} (h : SameAnswer s u o o') :
    SameServed s u o o' := by
  rintro t rfl
  obtain ⟨v, f, hv, ht, hfs, hr⟩ := h.exists_next
  exact ⟨v, [f], hv, hr, ht, hfs⟩

variable (hcfg : u.cfg = s.cfg) (hresp : u.responder = s.responder)
include hcfg hresp

theorem onResponderRxByte_sameServed (b : Byte) :
    SameServed s u (onResponderRxByte b s) (onResponderRxByte b u) := by
  unfold onResponderRxByte
  rw [hcfg, hresp]
  split
  · exact .silent rfl rfl rfl
  · exact .silent hresp rfl rfl

theorem onResponderRxIdle_sameServed : SameServed s u (onResponderRxIdle s) (onResponderRxIdle u) := by
  have hbuf : u.responderFrame = s.responderFrame := by
    rw [State.responderFrame, hcfg, hresp, State.responderFrame]
  have hview : u.responderView = s.responderView := by rw [State.responderView, hcfg, hresp, State.responderView]
  have hconsumed : u.consumed.responder = s.consumed.responder := congrArg Responder.consume hresp
  unfold onResponderRxIdle
  rw [hcfg, hresp, hbuf, hview]
  split
  · exact .silent hresp rfl rfl
  · cases s.responderFrame with
    | none => exact .fault _ _
    | some buf =>
      dsimp only
      cases hdec : decodeRequest s.cfg.toProtocol s.responderView buf with
      | error e => exact .silent hconsumed rfl rfl
      | ok i =>
        obtain ⟨a, ha⟩ := requestAddr_decodeRequest hdec
        have hsame := exec_sameAnswer (s := s.consumed) (u := u.consumed) hcfg hconsumed (ha ▸ Option.some_ne_none a)
        exact hsame.sameServed

theorem onAppSet_sameServed (f : AppField) : SameServed s u (onAppSet f s) (onAppSet f u) := by
  unfold onAppSet
  rw [hcfg, hresp]
  cases f with
  | brdStatus _ | batStatus _ | batCharge _ => exact .silent rfl rfl rfl
  | svrMain a | svrSec a =>
    dsimp only
    split
    · exact .silent rfl rfl rfl
    · exact .refused _ _
  | pointValue i x =>
    dsimp only
    split
    · cases s.responder.ptDb[i.toNat]? with
      | none => exact .fault _ _
      | some e =>
        dsimp only
        split
        · exact .silent rfl rfl rfl
        · exact .refused _ _
    · exact .refused _ _

/-- An event of the responder's side does the same to the responder in both runs. -/
theorem onEvent_sameServed {e : Event} (he : e.isResponders = true) :
    SameServed s u (onEvent e s) (onEvent e u) := by
  cases e with
  | responderRxByte b => exact onResponderRxByte_sameServed hcfg hresp b
  | responderRxIdle => exact onResponderRxIdle_sameServed hcfg hresp
  | appSet f => exact onAppSet_sameServed hcfg hresp f
  | reset | tick | pollerRxByte _ | pollerRxIdle => cases he

end

/-- The responder's side writes neither the poller nor its link, and draws no free value
(notes/assumptions/20.md). -/
theorem onEvent_responders_frame {e : Event} {s t : State} (he : e.isResponders = true)
    (ht : onEvent e s = .next t) : t.poller = s.poller ∧ t.freeSeq = s.freeSeq ∧ t.pTx = s.pTx := by
  refine ⟨(onEvent_responders he ht).poller, ?_, onEvent_responders_pTx he ht⟩
  cases e with
  | responderRxByte b =>
    rcases onResponderRxByte_cases b s with ⟨-, h⟩ | ⟨-, h⟩ <;> cases h.symm.trans ht <;> rfl
  | responderRxIdle =>
    rcases onResponderRxIdle_next ht with ⟨-, rfl⟩ | ⟨buf, -, ⟨e, -, rfl⟩ | ⟨i, hi, ht⟩⟩
    · rfl
    · rfl
    · obtain ⟨a, ha⟩ := requestAddr_decodeRequest hi
      rcases exec_request (s := s.consumed) ha ht with ⟨r, rfl⟩ | ⟨k, x, e, -, -, -, -, -, rfl⟩ <;> rfl
  | appSet f => obtain ⟨r, rfl, -⟩ := onAppSet_next ht; rfl
  | reset | tick | pollerRxByte _ | pollerRxIdle => cases he

/-- Settles O54: either side's events read and write the configuration and their own unit only. -/
theorem unitsShareNoState : Obligations.UnitsShareNoState := by
  intro s1 s2 t1 e es1 es2 hcfg hev1 hev2 hstep
  obtain ⟨hc, hstate, -⟩ := step_next hstep
  rw [step_event hc hstate hev1] at hstep
  constructor
  · intro he hpoller hfree
    have hsame : SamePolled (s1.withEvents es1) (s2.withEvents es2) (s1.withEvents es1) (s2.withEvents es2) :=
      ⟨hcfg.symm, hpoller.symm, hfree.symm, [], by simp, by simp⟩
    obtain ⟨t2, ht2, -, hp, hfree', fs, hsent1, hsent2⟩ := onEvent_samePolled hsame he hstep
    obtain ⟨hresp1, hrTx1⟩ := onEvent_pollers_frame (s := s1.withEvents es1) he hstep
    obtain ⟨hresp2, hrTx2⟩ := onEvent_pollers_frame (s := s2.withEvents es2) he ht2
    have hstep2 := (step_event (hcfg ▸ hc) (hpoller ▸ hstate) hev2).trans ht2
    exact ⟨t2, fs, hstep2, hp.symm, hfree'.symm, hresp1, hresp2, hsent1, hsent2, hrTx1, hrTx2⟩
  · intro he hresp hstate2
    obtain ⟨t2, fs, ht2, hr, hsent1, hsent2⟩ :=
      onEvent_sameServed (s := s1.withEvents es1) (u := s2.withEvents es2) hcfg.symm hresp.symm he t1 hstep
    obtain ⟨hp1, hfree1, hpTx1⟩ := onEvent_responders_frame (s := s1.withEvents es1) he hstep
    obtain ⟨hp2, hfree2, hpTx2⟩ := onEvent_responders_frame (s := s2.withEvents es2) he ht2
    have hstep2 := (step_event (hcfg ▸ hc) hstate2 hev2).trans ht2
    exact ⟨t2, fs, hstep2, hr.symm, hp1, hp2, hfree1, hfree2, hsent1, hsent2, hpTx1, hpTx2⟩

end Sys2Proof.Machine
end

section
/-!
`RESET` (70_reset_and_hazards.md R380 to R385): one equation for the event, and from it what it leaves in each register,
that every session takes it, and that the state after it has the invariant.
-/

namespace Sys2Proof.Machine

/-- What `RESET` makes of a state from which it has been taken; `onReset_eq` ties it to the event. -/
def State.afterReset (s : State) : State :=
  { s.crcIdle with poller := Poller.reset s.cfg.maxPoints, responder := Responder.reset s.cfg }

theorem onReset_eq (s : State) : onReset s = .next s.afterReset := rfl

section
variable (s : State)

@[simp] theorem State.afterReset_cfg : s.afterReset.cfg = s.cfg := rfl
@[simp] theorem State.afterReset_poller : s.afterReset.poller = Poller.reset s.cfg.maxPoints := rfl
@[simp] theorem State.afterReset_responder : s.afterReset.responder = Responder.reset s.cfg := rfl
@[simp] theorem State.afterReset_events : s.afterReset.events = s.events := rfl
@[simp] theorem State.afterReset_pTx : s.afterReset.pTx = s.pTx := rfl
@[simp] theorem State.afterReset_rTx : s.afterReset.rTx = s.rTx := rfl

end

/-- A step that takes a `RESET` completes, from every state that steps at all (30_encoding.md R170). -/
theorem step_reset {s : State} {es : List Event} (hc : s.cfg.ok = true) (hs : s.poller.state ≠ 15)
    (he : s.events = .reset :: es) : step s = .next (s.withEvents es).afterReset :=
  (step_event hc hs he).trans (onReset_eq _)

/-- Settles O48: the registers of both units are those of `Poller.reset` and `Responder.reset`. -/
theorem resetEventLeaves : Obligations.ResetEventLeaves := fun _ _ hc hs he =>
  ⟨_, step_reset hc hs he, by simp [Poller.reset, Responder.reset]⟩

/-! ### The invariant -/

/-- A state whose units are as after `RESET` has the invariant, whatever the links and the events to come. -/
theorem State.inv_of_reset {s : State} (hc : s.cfg.ok = true) (hp : s.poller = Poller.reset s.cfg.maxPoints)
    (hr : s.responder = Responder.reset s.cfg) : s.Inv := by
  have hgood : s.poller.Good s.cfg := hp ▸ ⟨.init, rfl, .reset, trivial⟩
  have hsrx : s.srxOk := by
    rw [State.srxOk, hr]
    exact ⟨Memory.wf_nil, Nat.zero_le _⟩
  exact s.inv_iff.2 ⟨hc, hgood, State.databaseOk_reset hc hr, hsrx⟩

/-- Settles O57: the reference configuration meets the boot requirements too. -/
theorem resetHasTheInvariant : Obligations.ResetHasTheInvariant := by
  have boot (c : Config) (hc : c.ok = true) : (State.boot c).Inv := State.inv_of_reset hc rfl rfl
  exact ⟨boot, boot Config.reference (by decide)⟩

/-! ### Several sessions (10_state.md R78) -/

/-- A session that can step: its configuration meets the boot requirements and its state code is legal. -/
def State.Steps (s : State) : Prop := s.cfg.ok = true ∧ s.poller.state ≠ 15

/-- Sessions that can all step take the `RESET` together, before the events they have to come. -/
theorem Sessions.reset_eq {ss : Sessions} (h : ∀ u ∈ ss, u.Steps) : ss.reset = .next (ss.map State.afterReset) := by
  induction ss with
  | nil => rfl
  | cons s ss ih =>
    obtain ⟨⟨hc, hs⟩, hrest⟩ := List.forall_mem_cons.1 h
    have hstep : step (s.withEvents (.reset :: s.events)) = .next s.afterReset := step_reset hc hs rfl
    rw [Sessions.reset, hstep, ih hrest]
    rfl

/-- The step of the sessions on the `RESET` of session `k`. -/
theorem Sessions.stepAt_reset {ss : Sessions} {k : Nat} {s : State} {es : List Event} (hk : ss[k]? = some s)
    (he : s.events = .reset :: es) (h : ∀ u ∈ ss, u.Steps) :
    ss.stepAt k = some (.next ((ss.set k (s.withEvents es)).map State.afterReset)) := by
  have hs : (s.withEvents es).Steps := h s (List.mem_of_getElem? hk)
  have hset : ∀ u ∈ ss.set k (s.withEvents es), u.Steps := fun u hu =>
    (List.mem_or_eq_of_mem_set hu).elim (h u) (· ▸ hs)
  unfold Sessions.stepAt
  simp only [hk, he]
  rw [Sessions.reset_eq hset]

/-- Settles O56: the session that holds the `RESET` gives it up, and then every session takes one. -/
theorem resetReachesEverySession : Obligations.ResetReachesEverySession := by
  intro ss s k es hk he h
  refine ⟨_, Sessions.stepAt_reset hk he h, by simp, fun j u hj => ?_⟩
  refine ⟨(u.withEvents (if j = k then es else u.events)).afterReset, ?_, rfl, rfl, rfl, rfl, rfl, rfl, rfl⟩
  rw [List.getElem?_map]
  by_cases hjk : j = k
  · subst hjk
    cases hk.symm.trans hj
    obtain ⟨hlt, -⟩ := List.getElem?_eq_some_iff.1 hk
    rw [List.getElem?_set_self hlt, if_pos rfl]
    rfl
  · rw [List.getElem?_set_ne (Ne.symm hjk), hj, if_neg hjk]
    rfl

end Sys2Proof.Machine
end

section
/-!
Who transmits when (70_reset_and_hazards.md R390, 42_dispatcher.md R231): a poller state that ends otherwise than in its
wait state has sent nothing, and of the responder's events only `RX_IDLE` answers.
-/

namespace Sys2Proof.Machine

/-! ### The poller (43_poller_fsm.md R274) -/

/-- A request that is counted is sent, or the handler fails. -/
theorem countedSend_sends (s : State) (a : Byte) :
    (countedSend s a).state.pTx = s.pTx ∨ (countedSend s a).result = .ok := by
  rcases countedSend_cases s a with ⟨-, h⟩ | ⟨-, h⟩ <;> rw [h]
  · exact .inl rfl
  · exact .inr rfl

/-- A handler sends only in a state that transmits, and then ends with OK. -/
theorem FsmState.handler_sends {f : FsmState} {s : State} {h : Handled} (hh : f.handler s = .ok h) :
    h.state.pTx = s.pTx ∨ (f ∈ sendStates ∧ h.result = .ok) := by
  cases f with
  | init | buildSch => cases hh; exact .inl rfl
  | sendItfVer | sendBrdId => cases hh; exact .inr ⟨by decide, rfl⟩
  | waitItfVerAns | waitBrdIdAns | waitPtDescAns | waitPtValAns =>
    cases hh
    rcases waitAns_cases s with ⟨-, h⟩ | ⟨-, ⟨-, h⟩ | ⟨-, -, h⟩ | ⟨-, -, h⟩⟩ <;>
      exact .inl (congrArg (·.state.pTx) h)
  | procItfVer =>
    obtain ⟨buf, -, rfl⟩ := processAnswer_ok hh
    rcases judgeItfVer_cases (s.answer buf) s.crcIdle with ⟨-, h⟩ | ⟨-, e, h⟩ <;>
      exact .inl (congrArg (·.state.pTx) h)
  | procBrdId =>
    obtain ⟨buf, -, rfl⟩ := processAnswer_ok hh
    rcases judgeBrdId_cases (s.answer buf) s.crcIdle with ⟨b, -, -, -, h⟩ | ⟨b, -, -, h⟩ | ⟨-, h⟩ <;>
      exact .inl (congrArg (·.state.pTx) h)
  | procPtDesc =>
    obtain ⟨buf, -, rfl⟩ := processAnswer_ok hh
    rcases judgePtDesc_cases (s.answer buf) s.crcIdle with ⟨d, -, h⟩ | ⟨-, h⟩ <;>
      exact .inl (congrArg (·.state.pTx) h)
  | procPtVal =>
    obtain ⟨buf, -, rfl⟩ := handleProcPtVal_ok hh
    rcases judgePtVal_cases s.dueIndex (s.answer buf) s.crcIdle.nextFree with
      ⟨-, h⟩ | ⟨r, -, ⟨-, h⟩ | ⟨-, -, h⟩ | ⟨-, -, h⟩⟩ <;>
      exact .inl (congrArg (·.state.pTx) h)
  | runSch =>
    cases hh
    simp only [handleRunSch]
    split <;> exact .inl rfl
  | sendPtDesc =>
    cases hh
    rcases handleSendPtDesc_cases s with ⟨-, h⟩ | ⟨-, h⟩ <;> rw [h]
    · exact .inl rfl
    · exact (countedSend_sends s.nextFree _).imp id fun hok => ⟨by decide, hok⟩
  | sendPtVal =>
    cases hh
    simp only [handleSendPtVal]
    split
    · exact .inl rfl
    · exact (countedSend_sends s _).imp id fun hok => ⟨by decide, hok⟩

/-- The result OK takes a state that transmits to its wait state (43_poller_fsm.md R272). -/
theorem FsmState.mem_sendWaitPairs {f g : FsmState} (hf : f ∈ sendStates) (hg : f.target .ok = .used g) :
    (f.code, g.code) ∈ sendWaitPairs := by
  have pairs : ∀ f ∈ sendStates, ∀ g ∈ FsmState.all, f.target .ok = .used g →
      (f.code, g.code) ∈ sendWaitPairs := by decide
  exact pairs f hf g g.mem_all hg

/-- A tick sends nothing, or one request on the way from a state that transmits to its wait state. -/
theorem onTick_sends {s t : State} (ht : onTick s = .next t) :
    t.pTx = s.pTx ∨ ∃ f, t.pTx = s.pTx ++ [f] ∧ (s.poller.state, t.poller.state) ∈ sendWaitPairs := by
  rcases (onTick_polled ht).pTx with hpTx | ⟨a, hpTx⟩
  · exact .inl hpTx
  obtain ⟨f, h, g, hf, hh, hg, rfl⟩ := onTick_handler ht
  rcases FsmState.handler_sends hh with hsent | ⟨hsend, hok⟩
  · exact .inl hsent
  · rw [hok] at hg
    exact .inr ⟨_, hpTx, hf ▸ FsmState.mem_sendWaitPairs hsend hg⟩

/-! ### The responder (42_dispatcher.md R231) -/

/-- A request that completes is answered with one frame (42_dispatcher.md R233). -/
theorem exec_request_answers {i : Instr} {a : Byte} {s t : State} (ha : requestAddr s.cfg.addrs i = some a)
    (ht : exec i s = .next t) : ∃ f, t.rTx = s.rTx ++ [f] := by
  rcases exec_request ha ht with ⟨r, rfl⟩ | ⟨k, x, e, -, -, -, -, -, rfl⟩ <;> exact ⟨_, rfl⟩

/-- The responder's side sends nothing, or one answer on its `RX_IDLE`. -/
theorem onEvent_responders_rTx {e : Event} {s t : State} (he : e.isResponders = true) (ht : onEvent e s = .next t) :
    t.rTx = s.rTx ∨ ∃ f, t.rTx = s.rTx ++ [f] ∧ e = .responderRxIdle := by
  cases e with
  | responderRxByte b =>
    rcases onResponderRxByte_cases b s with ⟨-, h⟩ | ⟨-, h⟩ <;> cases h.symm.trans ht <;> exact .inl rfl
  | responderRxIdle =>
    rcases onResponderRxIdle_next ht with ⟨-, rfl⟩ | ⟨buf, -, ⟨e, -, rfl⟩ | ⟨i, hi, ht⟩⟩
    · exact .inl rfl
    · exact .inl rfl
    · obtain ⟨a, ha⟩ := requestAddr_decodeRequest hi
      obtain ⟨f, hf⟩ := exec_request_answers (s := s.consumed) ha ht
      exact .inr ⟨f, hf, rfl⟩
  | appSet f => obtain ⟨r, rfl, -⟩ := onAppSet_next ht; exact .inl rfl
  | reset | tick | pollerRxByte _ | pollerRxIdle => cases he

/-- Settles O51: by the side the event belongs to; either side leaves the other's link alone. -/
theorem transmissionDiscipline : Obligations.TransmissionDiscipline := by
  intro s t e es he ht
  obtain ⟨hc, hs, -⟩ := step_next ht
  rw [step_event hc hs he] at ht
  rcases e.side with rfl | hp | hr
  · cases ht
    exact ⟨.inl rfl, .inl rfl⟩
  · have hrTx : t.rTx = s.rTx := (onEvent_pollers_frame hp ht).2
    refine ⟨?_, .inl hrTx⟩
    by_cases htick : e = .tick
    · subst htick
      exact (onTick_sends (s := s.withEvents es) ht).imp id fun ⟨f, hf, hpair⟩ => ⟨f, hf, rfl, hrTx, hpair⟩
    · obtain ⟨p, hnext, -⟩ := onEvent_pollers_receive (s.withEvents es) hp htick
      cases hnext.symm.trans ht
      exact .inl rfl
  · have hpTx : t.pTx = s.pTx := onEvent_responders_pTx (s := s.withEvents es) hr ht
    refine ⟨.inl hpTx, ?_⟩
    exact (onEvent_responders_rTx (s := s.withEvents es) hr ht).imp id fun ⟨f, hf, hidle⟩ => ⟨f, hf, hidle, hpTx⟩

end Sys2Proof.Machine
end
